-- ==== Sys2Proof/Word.lean ====
section
/-! DEFINITION. The bit vectors of the block's command interface and response (spec/30_encoding.md R70,
spec/10_state.md R32). The block has no machine word: speeds and duties are unsigned integers with
parameter-dependent widths (log entry 5), so they are Nat and not bit vectors. -/

namespace Sys2Proof

/-- One command word `cmd[34:0]` (30_encoding.md R70). -/
abbrev CmdWord := BitVec 35

/-- The opcode field `cmd[34:32]` (30_encoding.md R70). -/
abbrev Opcode := BitVec 3

/-- The operand field `cmd[31:0]` (30_encoding.md R70); RPM_IN_W = 32 (00_scope.md R5). -/
abbrev Arg := BitVec 32

/-- The Hall code `{hallA, hallB, hallC}` (40_commutation_table.md R100). -/
abbrev HallCode := BitVec 3

end Sys2Proof
end

