-- ==== Sys2Proof/Config.lean ====
section
/-! DEFINITION. What is fixed for a block's life (spec/00_scope.md R5) and what the outside world leaves free
(spec/93_implementation_defined.md I7, I8, I9). -/

namespace Sys2Proof

/-- A phase-enable pattern `(enA, enB, enC)` (00_scope.md §6 Glossary). -/
structure Pattern where
  enA : Bool
  enB : Bool
  enC : Bool
  deriving DecidableEq, Repr

/-- The commutation table: one pattern for each Hall code 0..7 (10_state.md R30). -/
structure CommTable where
  entry0 : Pattern
  entry1 : Pattern
  entry2 : Pattern
  entry3 : Pattern
  entry4 : Pattern
  entry5 : Pattern
  entry6 : Pattern
  entry7 : Pattern
  deriving DecidableEq, Repr

/-- The parameters that a rule reads (00_scope.md R5). COMM_TABLE is the table itself, held in State as `comm`. -/
structure Params where
  /-- MAX_RPM -/
  maxRpm : Nat
  /-- PWM_RANGE -/
  pwmRange : Nat
  /-- RPM_IN_SIGNED -/
  rpmInSigned : Bool
  deriving DecidableEq, Repr

/-- The constraints of 00_scope.md R5 on MAX_RPM and PWM_RANGE. -/
abbrev Params.Admissible (p : Params) : Prop :=
  1 ≤ p.maxRpm ∧ p.maxRpm ≤ 2 ^ 31 - 1 ∧ 1 ≤ p.pwmRange ∧ p.pwmRange ≤ 2 ^ 31 - 1

namespace Config

/-- The default values of 00_scope.md R5. -/
def defaultParams : Params := { maxRpm := 5000, pwmRange := 1024, rpmInSigned := true }

/-- POLE_COUNT - 1: OPEN, no value given, read by no rule (00_scope.md R5, 92_eei_decisions.md D33; log entry 4). -/
opaque poleCountLessOne : Nat

/-- POLE_COUNT: "any positive integer; no rule reads it" (00_scope.md R5; log entry 4). -/
def poleCount : Nat := poleCountLessOne + 1

/-- PWM_FREQ: "any; no rule reads it" (00_scope.md R5). DESIGN CHOICE (log entry 4): the spec gives it no type and no
unit, and the model makes it a natural number, in no named unit. -/
opaque pwmFreq : Nat

/-- Free value: the command word of the n-th step whose inputs are not listed
(93_implementation_defined.md I7; log entry 2). -/
opaque freeCmd : Nat → CmdWord

/-- Free value: the level of Hall input A in that step (93_implementation_defined.md I8; log entry 2). -/
opaque freeHallA : Nat → Bool

/-- Free value: the level of Hall input B in that step (93_implementation_defined.md I8; log entry 2). -/
opaque freeHallB : Nat → Bool

/-- Free value: the level of Hall input C in that step (93_implementation_defined.md I8; log entry 2). -/
opaque freeHallC : Nat → Bool

/-- Free value: `hw_init_ok` in that step (93_implementation_defined.md I9; log entry 2). -/
opaque freeHwInitOk : Nat → Bool

/-- Free value: `rst` in that step (10_state.md R32; log entry 2). -/
opaque freeRst : Nat → Bool

end Config

end Sys2Proof
end

