-- ==== Sys2Proof/Syntax.lean ====
section
/-! DEFINITION. The commands of the block, one constructor for each row of spec/opcode_table.json
(spec/30_encoding.md R72). -/

namespace Sys2Proof

/-- The commands. Only SET_SPEED has an operand (30_encoding.md R71); the `arg` field of every other command
encodes nothing (R74), so no constructor holds it. -/
inductive Instr where
  /-- NOP, `op = 000` -/
  | nop
  /-- INIT, `op = 001` -/
  | init
  /-- SET_SPEED, `op = 010`. The operand is `rpmIn`, the integer that R71 assembles from `arg`. -/
  | setSpeed (rpm : Int)
  /-- START, `op = 011` -/
  | start
  /-- STOP, `op = 100` -/
  | stop
  /-- GET_SPEED, `op = 101` -/
  | getSpeed
  /-- UPDATE, `op = 110` -/
  | update
  /-- the reserved opcode, `op = 111` (R73) -/
  | reserved
  deriving DecidableEq, Repr

end Sys2Proof
end

