-- ==== Sys2Proof/WellFormed.lean ====
section
/-! DEFINITION. Which instructions have an encoding: the operand ranges of spec/30_encoding.md R71 and R76. -/

namespace Sys2Proof

/-- The range of the SET_SPEED operand: `[-2^31, 2^31 - 1]` when RPM_IN_SIGNED, else `[0, 2^32 - 1]`
(30_encoding.md R71, R76). -/
def operandInRange (signed : Bool) (rpm : Int) : Bool :=
  if signed then decide (-2 ^ 31 ≤ rpm) && decide (rpm ≤ 2 ^ 31 - 1)
  else decide (0 ≤ rpm) && decide (rpm ≤ 2 ^ 32 - 1)

/-- An instruction that some command word encodes, for the given RPM_IN_SIGNED. -/
def WellFormed (signed : Bool) (i : Instr) : Bool :=
  match i with
  | .nop => true
  | .init => true
  | .setSpeed rpm => operandInRange signed rpm
  | .start => true
  | .stop => true
  | .getSpeed => true
  | .update => true
  | .reserved => true

end Sys2Proof
end

