-- ==== Sys2Proof/Decode.lean ====
section
/-! DEFINITION. The command decoder and encoder (spec/30_encoding.md R70 to R75). -/

namespace Sys2Proof

/-- The opcode field `cmd[34:32]` (30_encoding.md R70). -/
def opField (w : CmdWord) : Opcode := w.extractLsb' 32 3

/-- The operand field `cmd[31:0]` (30_encoding.md R70). -/
def argField (w : CmdWord) : Arg := w.extractLsb' 0 32

/-- `rpmIn = RPM_IN_SIGNED ? sint(arg) : uint(arg)` (30_encoding.md R71). -/
def rpmIn (signed : Bool) (arg : Arg) : Int :=
  if signed then arg.toInt else (arg.toNat : Int)

/-- The decoder: total, and it selects the command by `cmd[34:32]` alone (30_encoding.md R72). The last row is
`op = 111`, the one value that is left (R73). -/
def decode (signed : Bool) (w : CmdWord) : Instr :=
  match (opField w).toNat with
  | 0 => .nop
  | 1 => .init
  | 2 => .setSpeed (rpmIn signed (argField w))
  | 3 => .start
  | 4 => .stop
  | 5 => .getSpeed
  | 6 => .update
  | _ => .reserved

/-- Why a number is not a command word. -/
inductive DecodeError where
  /-- The number has a bit above bit 34, and `cmd` has 35 bits (30_encoding.md R75). Safe. -/
  | widerThanCommandWord
  deriving DecidableEq, Repr

/-- Decode a number: total, and a number that is no 35-bit command word is rejected by name. -/
def decodeNumber (signed : Bool) (w : Nat) : Except DecodeError Instr :=
  if w < 2 ^ 35 then .ok (decode signed (BitVec.ofNat 35 w)) else .error .widerThanCommandWord

/-- The instruction the decoder reads from a word given as the opcode table numbers its bits. Bits at `nbits` and
above are 0, and RPM_IN_SIGNED has its default (log entry 6). -/
def decodeTableWord (nbits w : Nat) : Option Instr :=
  match decodeNumber Config.defaultParams.rpmInSigned (w % 2 ^ nbits) with
  | .ok i => some i
  | .error _ => none

/-- The opcode of a command (30_encoding.md R72). -/
def opcodeOf (i : Instr) : Opcode :=
  match i with
  | .nop => 0b000#3
  | .init => 0b001#3
  | .setSpeed _ => 0b010#3
  | .start => 0b011#3
  | .stop => 0b100#3
  | .getSpeed => 0b101#3
  | .update => 0b110#3
  | .reserved => 0b111#3

/-- The operand field of a command: the low 32 bits of `rpm` in two's complement for SET_SPEED
(30_encoding.md R76), and 0 where the field is ignored (R74, R77). -/
def argOf (i : Instr) : Arg :=
  match i with
  | .nop => 0
  | .init => 0
  | .setSpeed rpm => BitVec.ofInt 32 rpm
  | .start => 0
  | .stop => 0
  | .getSpeed => 0
  | .update => 0
  | .reserved => 0

/-- The word `{op, arg}` (30_encoding.md R70). -/
def joinFields (op : Opcode) (arg : Arg) : CmdWord := (op ++ arg : BitVec (3 + 32))

/-- The encoder: the command word of a well-formed instruction. -/
def encode (i : Instr) : CmdWord := joinFields (opcodeOf i) (argOf i)

/-- Assembling one command (30_encoding.md R76): an operand out of range is an assembly error, and "the reserved
opcode has no mnemonic". -/
def assemble (signed : Bool) (i : Instr) : Option CmdWord :=
  if i ≠ .reserved ∧ WellFormed signed i = true then some (encode i) else none

end Sys2Proof
end

