-- ==== Sys2Proof/Machine/Scaler.lean ====
section
/-! DEFINITION. The speed clamp and the speed-to-duty scaler (spec/41_speed_scaler.md) and the register widths that
follow from the parameters (spec/00_scope.md R5). -/

namespace Sys2Proof.Machine

/-- `clampSpeed(rpmIn) = clamp(rpmIn, 0, MAX_RPM)` on unbounded integers (41_speed_scaler.md R120); `clamp` is that
of 00_scope.md R7. -/
def clampSpeed (p : Params) (rpm : Int) : Nat := (min (max rpm 0) (p.maxRpm : Int)).toNat

/-- `scaleDuty(speed) = (speed * PWM_RANGE) / MAX_RPM`, exact product and truncating division
(41_speed_scaler.md R122). -/
def scaleDuty (p : Params) (speed : Nat) : Nat := speed * p.pwmRange / p.maxRpm

/-- `bitlen(n)`: the least `w` with `n < 2^w` (00_scope.md R5). -/
def bitlen (n : Nat) : Nat := if n = 0 then 0 else n.log2 + 1

/-- `SPEED_W = bitlen(MAX_RPM)` (00_scope.md R5). -/
def speedW (p : Params) : Nat := bitlen p.maxRpm

/-- `DUTY_W = bitlen(PWM_RANGE)` (00_scope.md R5). -/
def dutyW (p : Params) : Nat := bitlen p.pwmRange

end Sys2Proof.Machine
end

