-- ==== Sys2Proof/Machine/Commutation.lean ====
section
/-! DEFINITION. The commutation table (spec/40_commutation_table.md): the Hall code, the lookup, the default
contents and the constraints on an admissible table. -/

namespace Sys2Proof.Machine

/-- `code[2:0] = {hallA, hallB, hallC}` (40_commutation_table.md R100). -/
def hallCode (hallA hallB hallC : Bool) : HallCode :=
  BitVec.ofNat 3 (4 * hallA.toNat + 2 * hallB.toNat + hallC.toNat)

/-- Codes 0 and 7 are invalid (40_commutation_table.md R101). -/
def invalidCode (code : HallCode) : Bool := code == 0#3 || code == 7#3

/-- `LUT(code) = COMM[code]`, total and pure (40_commutation_table.md R105). -/
def lookup (t : CommTable) (code : HallCode) : Pattern :=
  match code.toNat with
  | 0 => t.entry0
  | 1 => t.entry1
  | 2 => t.entry2
  | 3 => t.entry3
  | 4 => t.entry4
  | 5 => t.entry5
  | 6 => t.entry6
  | _ => t.entry7

/-- The all-off pattern (00_scope.md §6 Glossary). -/
def allOff : Pattern := ⟨false, false, false⟩

/-- The table with the given entries for codes 1, 2, 4 and 6 (the parameter COMM_TABLE of 00_scope.md R5); the
entries for codes 0, 3, 5 and 7 are fixed (40_commutation_table.md R102). -/
def tableOf (e1 e2 e4 e6 : Pattern) : CommTable :=
  { entry0 := allOff, entry1 := e1, entry2 := e2, entry3 := ⟨true, true, false⟩
    entry4 := e4, entry5 := ⟨true, false, true⟩, entry6 := e6, entry7 := allOff }

/-- The default contents of COMM (40_commutation_table.md R104). -/
def defaultTable : CommTable :=
  tableOf ⟨true, false, false⟩ ⟨false, true, false⟩ ⟨false, false, true⟩ ⟨false, true, true⟩

/-- How many phases two patterns drive differently. -/
def phaseChanges (x y : Pattern) : Nat :=
  (x.enA ^^ y.enA).toNat + (x.enB ^^ y.enB).toNat + (x.enC ^^ y.enC).toNat

/-- The entries that MC fixes (40_commutation_table.md R102). -/
abbrev FixedEntries (t : CommTable) : Prop :=
  t.entry0 = ⟨false, false, false⟩ ∧ t.entry3 = ⟨true, true, false⟩ ∧
  t.entry5 = ⟨true, false, true⟩ ∧ t.entry7 = ⟨false, false, false⟩

/-- The six valid entries are non-zero and pairwise distinct (40_commutation_table.md R103, point 1). -/
abbrev ValidEntriesDistinct (t : CommTable) : Prop :=
  [⟨false, false, false⟩, t.entry1, t.entry2, t.entry3, t.entry4, t.entry5, t.entry6].Nodup

/-- Neighbours in the Hall cycle 1, 3, 2, 6, 4, 5 differ in exactly one phase
(40_commutation_table.md R103, point 3). -/
abbrev OnePhasePerHallStep (t : CommTable) : Prop :=
  phaseChanges t.entry1 t.entry3 = 1 ∧ phaseChanges t.entry3 t.entry2 = 1 ∧
  phaseChanges t.entry2 t.entry6 = 1 ∧ phaseChanges t.entry6 t.entry4 = 1 ∧
  phaseChanges t.entry4 t.entry5 = 1 ∧ phaseChanges t.entry5 t.entry1 = 1

/-- A table that meets R102 and R103 of 40_commutation_table.md. -/
abbrev AdmissibleTable (t : CommTable) : Prop :=
  FixedEntries t ∧ ValidEntriesDistinct t ∧ OnePhasePerHallStep t

end Sys2Proof.Machine
end

