-- ==== Sys2Proof/Machine/State.lean ====
section
/-! DEFINITION. The state of the block (spec/10_state.md R20), the inputs presented to it (R32), and the state after
reset (spec/70_reset_and_hazards.md R230). -/

namespace Sys2Proof.Machine

/-- `initState` (10_state.md R27). Encoding 11 "is never written" and is not represented (log entry 7). -/
inductive InitState where
  | uninit
  | ready
  | failed
  deriving DecidableEq, Repr

/-- `respStatus` (60_exceptions.md R201). -/
inductive RespStatus where
  | ok
  | hwFail
  | notInit
  | illegal
  deriving DecidableEq, Repr

/-- The names of the three phases (00_scope.md R8). -/
inductive Phase where
  | a
  | b
  | c
  deriving DecidableEq, Repr

/-- The phase duty registers `phaseDuty[A]`, `phaseDuty[B]`, `phaseDuty[C]` (10_state.md R25). -/
structure PhaseDuty where
  a : Nat
  b : Nat
  c : Nat
  deriving DecidableEq, Repr

/-- What the input ports carry in one step (10_state.md R32). -/
structure StepInput where
  cmd : CmdWord
  hallA : Bool
  hallB : Bool
  hallC : Bool
  hwInitOk : Bool
  rst : Bool
  deriving DecidableEq, Repr

/-- The state. `commandedSpeed` to `comm` are the elements of 10_state.md R20; `params`, `stimulus` and `draws` are
the model's own (log entries 1 and 2). -/
structure State where
  /-- MODEL'S OWN: the parameters of 00_scope.md R5, which no step writes (log entry 1). -/
  params : Params
  /-- `COMM` (10_state.md R30) -/
  comm : CommTable
  /-- `commandedSpeed` (10_state.md R21) -/
  commandedSpeed : Nat
  /-- `isRunning` (10_state.md R22) -/
  isRunning : Bool
  /-- `dutyCycle` (10_state.md R23) -/
  dutyCycle : Nat
  /-- `phaseDuty` (10_state.md R25) -/
  phaseDuty : PhaseDuty
  /-- `initState` (10_state.md R27) -/
  initState : InitState
  /-- `hallFault` (10_state.md R28) -/
  hallFault : Bool
  /-- `respStatus` (10_state.md R29) -/
  respStatus : RespStatus
  /-- `respData` (10_state.md R29) -/
  respData : BitVec 32
  /-- MODEL'S OWN: the inputs of the steps to come, the next step's first (log entry 2). -/
  stimulus : List StepInput
  /-- MODEL'S OWN: how many steps have taken free inputs (log entry 2). -/
  draws : Nat
  deriving DecidableEq, Repr

/-- The reasons to stop with a fault: none. "The block raises no synchronous exception" (60_exceptions.md R203), and
"no behaviour of the block is left as `fault` or `stuck`" (93_implementation_defined.md §1; log entry 8). -/
inductive Fault where
  deriving DecidableEq, Repr

/-- The reasons to refuse. -/
inductive Refusal where
  /-- Raised by an arm of `exec` whose instruction has no meaning yet. No arm raises it. Safe. -/
  | notModelled (mnemonic : String)
  deriving DecidableEq, Repr

/-- The block right after reset with the given parameters and table (70_reset_and_hazards.md R230). -/
def State.resetWith (p : Params) (t : CommTable) : State :=
  { params := p
    comm := t
    commandedSpeed := 0
    isRunning := false
    dutyCycle := 0
    phaseDuty := ⟨0, 0, 0⟩
    initState := .uninit
    hallFault := false
    respStatus := .ok
    respData := 0
    stimulus := []
    draws := 0 }

/-- The block right after reset (70_reset_and_hazards.md R230) with the default parameters and the default table
(00_scope.md R5). Nothing is listed in `stimulus`: every input is a free value (log entry 2). -/
def State.reset : State := State.resetWith Config.defaultParams defaultTable

end Sys2Proof.Machine
end

