-- ==== Sys2Proof/Machine/Ops.lean ====
section
/-! DEFINITION. The primitives of spec/00_scope.md R8 and what a step does around a command. The block has no memory
and no general registers (spec/20_memory.md R50, spec/10_state.md R34), and it takes no exception
(spec/60_exceptions.md R203): `respond` is the one way it reports an error. -/

namespace Sys2Proof.Machine

/-- The free inputs of the n-th step that the list does not give (93_implementation_defined.md I7 to I9;
log entry 2). -/
def drawnInput (n : Nat) : StepInput :=
  { cmd := Config.freeCmd n
    hallA := Config.freeHallA n
    hallB := Config.freeHallB n
    hallC := Config.freeHallC n
    hwInitOk := Config.freeHwInitOk n
    rst := Config.freeRst n }

/-- The inputs presented in the coming step (00_scope.md R9). -/
def State.presented (s : State) : StepInput :=
  match s.stimulus with
  | x :: _ => x
  | [] => drawnInput s.draws

/-- The step is over: the next step's inputs come up. -/
def State.advanceInputs (s : State) : State :=
  match s.stimulus with
  | _ :: rest => { s with stimulus := rest }
  | [] => { s with draws := s.draws + 1 }

/-- The command presented in the coming step (30_encoding.md R70, R72). -/
def State.presentedCommand (s : State) : Instr := decode s.params.rpmInSigned s.presented.cmd

/-- `HallRead()` (00_scope.md R8, 20_memory.md R52), composed into the Hall code of 40_commutation_table.md R100. -/
def hallRead (s : State) : HallCode :=
  hallCode s.presented.hallA s.presented.hallB s.presented.hallC

/-- `PhaseWrite(p, v)`: `phaseDuty[p] <- v` (00_scope.md R8, 10_state.md R25). -/
def phaseWrite (p : Phase) (v : Nat) (s : State) : State :=
  match p with
  | .a => { s with phaseDuty := { s.phaseDuty with a := v } }
  | .b => { s with phaseDuty := { s.phaseDuty with b := v } }
  | .c => { s with phaseDuty := { s.phaseDuty with c := v } }

/-- Writing all three phases in one step (20_memory.md R54). -/
def writePhases (d : PhaseDuty) (s : State) : State :=
  phaseWrite .c d.c (phaseWrite .b d.b (phaseWrite .a d.a s))

/-- `PhaseWrite(A, 0); PhaseWrite(B, 0); PhaseWrite(C, 0)`. -/
def phasesOff (s : State) : State := writePhases ⟨0, 0, 0⟩ s

/-- `respond(status, data)` (10_state.md R29). -/
def respond (status : RespStatus) (data : BitVec 32) (s : State) : State :=
  { s with respStatus := status, respData := data }

/-- Writing `commandedSpeed` writes `dutyCycle` in the same step (10_state.md R23, 41_speed_scaler.md R124). -/
def writeSpeed (speed : Nat) (s : State) : State :=
  { s with commandedSpeed := speed, dutyCycle := scaleDuty s.params speed }

/-- What a reset step writes (70_reset_and_hazards.md R230). `COMM` and the parameters stay. -/
def resetBlock (s : State) : State :=
  respond .ok 0
    (phasesOff
      { s with
        initState := .uninit
        commandedSpeed := 0
        dutyCycle := 0
        isRunning := false
        hallFault := false })

end Sys2Proof.Machine
end

