-- ==== Sys2Proof/Machine/Idle.lean ====
section
/-! DEFINITION. The commands that only respond: NOP and the reserved opcode (spec/43_controller_commands.md). -/

namespace Sys2Proof.Machine

/-- NOP (43_controller_commands.md R160). -/
def execNop (s : State) : Host.Outcome State Fault Refusal := .next (respond .ok 0 s)

/-- The reserved opcode (43_controller_commands.md R181, 60_exceptions.md R205). -/
def execReserved (s : State) : Host.Outcome State Fault Refusal := .next (respond .illegal 0 s)

end Sys2Proof.Machine
end

