-- ==== Sys2Proof/Machine/Flags.lean ====
section
/-! DEFINITION. The status of a response (spec/60_exceptions.md R201) and the encodings of the two coded registers
(spec/10_state.md R27, spec/60_exceptions.md R201). -/

namespace Sys2Proof.Machine

/-- `st(initState)` (43_controller_commands.md, before R160). -/
def statusOf (i : InitState) : RespStatus :=
  match i with
  | .ready => .ok
  | .uninit => .notInit
  | .failed => .hwFail

/-- The 2-bit code of `respStatus` (60_exceptions.md R201). -/
def RespStatus.code (r : RespStatus) : BitVec 2 :=
  match r with
  | .ok => 0b00#2
  | .hwFail => 0b01#2
  | .notInit => 0b10#2
  | .illegal => 0b11#2

/-- The 2-bit code of `initState` (10_state.md R27). -/
def InitState.code (i : InitState) : BitVec 2 :=
  match i with
  | .uninit => 0b00#2
  | .ready => 0b01#2
  | .failed => 0b10#2

end Sys2Proof.Machine
end

