-- ==== Sys2Proof/Machine/PhaseMux.lean ====
section
/-! DEFINITION. The phase-enable multiplexer and the commutation update (spec/42_phase_mux.md). -/

namespace Sys2Proof.Machine

/-- `phaseMux((enA, enB, enC), duty)` (42_phase_mux.md R140). -/
def phaseMux (pat : Pattern) (duty : Nat) : PhaseDuty :=
  { a := if pat.enA then duty else 0
    b := if pat.enB then duty else 0
    c := if pat.enC then duty else 0 }

/-- `CommutationUpdate()` (42_phase_mux.md R143). -/
def commutationUpdate (s : State) : State :=
  { writePhases (phaseMux (lookup s.comm (hallRead s)) s.dutyCycle) s with
    hallFault := invalidCode (hallRead s) }

/-- A commutation update if `isRunning = 1` (43_controller_commands.md R166, R178). -/
def commutateIfRunning (s : State) : State :=
  if s.isRunning then commutationUpdate s else s

end Sys2Proof.Machine
end

