-- ==== Sys2Proof/Machine/Lifecycle.lean ====
section
/-! DEFINITION. The run/stop lifecycle: INIT, START and STOP (spec/43_controller_commands.md). -/

namespace Sys2Proof.Machine

/-- The stopped state that INIT enters: speed 0, duty 0, stopped, all phases off, no Hall fault
(43_controller_commands.md R163). -/
def stoppedAtZero (s : State) : State :=
  { phasesOff { writeSpeed 0 s with isRunning := false } with hallFault := false }

/-- INIT (43_controller_commands.md R163, R164, R165). -/
def execInit (s : State) : Host.Outcome State Fault Refusal :=
  .next (
    if s.initState = .failed then respond .hwFail 0 s
    else if s.presented.hwInitOk then respond .ok 0 { stoppedAtZero s with initState := .ready }
    else respond .hwFail 0 { stoppedAtZero s with initState := .failed })

/-- START (43_controller_commands.md R169, R170). -/
def execStart (s : State) : Host.Outcome State Fault Refusal :=
  .next (
    if s.initState = .ready then respond .ok 0 (commutationUpdate { s with isRunning := true })
    else respond (statusOf s.initState) 0 s)

/-- STOP, the same in every `initState` (43_controller_commands.md R172, R173). -/
def execStop (s : State) : Host.Outcome State Fault Refusal :=
  .next (respond (statusOf s.initState) 0 (phasesOff { s with isRunning := false }))

end Sys2Proof.Machine
end

