-- ==== Sys2Proof/Machine/Operands.lean ====
section
/-! DEFINITION. The operand forms. One command has an operand, SET_SPEED, and one form (spec/30_encoding.md R71):
the decoder assembles `rpmIn`, and here it becomes the speed that is written. -/

namespace Sys2Proof.Machine

/-- The speed that SET_SPEED writes for the operand `rpm` in the state `s` (41_speed_scaler.md R120). -/
def speedOperand (rpm : Int) (s : State) : Nat := clampSpeed s.params rpm

/-- `zext_32(commandedSpeed)`, the data of GET_SPEED (43_controller_commands.md R175; log entry 5). -/
def speedData (s : State) : BitVec 32 := BitVec.ofNat 32 s.commandedSpeed

end Sys2Proof.Machine
end

