-- ==== Sys2Proof/Machine/Speed.lean ====
section
/-! DEFINITION. SET_SPEED and GET_SPEED (spec/43_controller_commands.md). -/

namespace Sys2Proof.Machine

/-- SET_SPEED (43_controller_commands.md R166, R167, R168). -/
def execSetSpeed (rpm : Int) (s : State) : Host.Outcome State Fault Refusal :=
  .next (
    if s.initState = .ready then
      respond .ok 0 (commutateIfRunning (writeSpeed (speedOperand rpm s) s))
    else respond (statusOf s.initState) 0 s)

/-- GET_SPEED, the same in every `initState` (43_controller_commands.md R175). -/
def execGetSpeed (s : State) : Host.Outcome State Fault Refusal :=
  .next (respond (statusOf s.initState) (speedData s) s)

end Sys2Proof.Machine
end

