-- ==== Sys2Proof/Machine/Update.lean ====
section
/-! DEFINITION. UPDATE (spec/43_controller_commands.md). -/

namespace Sys2Proof.Machine

/-- UPDATE (43_controller_commands.md R178, R179). -/
def execUpdate (s : State) : Host.Outcome State Fault Refusal :=
  .next (respond (statusOf s.initState) 0 (commutateIfRunning s))

end Sys2Proof.Machine
end

