-- ==== Sys2Proof/Machine/Dispatch.lean ====
section
/-! DEFINITION. One arm for each command (spec/30_encoding.md R72). -/

namespace Sys2Proof.Machine

def exec (i : Instr) (s : State) : Host.Outcome State Fault Refusal :=
  match i with
  | .nop => Sys2Proof.Machine.execNop s
  | .init => Sys2Proof.Machine.execInit s
  | .setSpeed rpm => Sys2Proof.Machine.execSetSpeed rpm s
  | .start => Sys2Proof.Machine.execStart s
  | .stop => Sys2Proof.Machine.execStop s
  | .getSpeed => Sys2Proof.Machine.execGetSpeed s
  | .update => Sys2Proof.Machine.execUpdate s
  | .reserved => Sys2Proof.Machine.execReserved s

end Sys2Proof.Machine
end

