-- ==== Sys2Proof/Machine/Step.lean ====
section
/-! DEFINITION. One step of the block (spec/00_scope.md R9, spec/20_memory.md R55). -/

namespace Sys2Proof.Machine

/-- One atomic step. A reset step does not execute the presented command (70_reset_and_hazards.md R230,
60_exceptions.md R207); any other step executes it. Either way the step's inputs are used up. -/
def step (s : State) : Host.Outcome State Fault Refusal :=
  if s.presented.rst then .next (resetBlock s).advanceInputs
  else
    match exec s.presentedCommand s with
    | .next t => .next t.advanceInputs
    | .fault r => .fault r
    | .refused r => .refused r

/-- `s` with the given command word presented in the next step, and no reset in that step. DESIGN CHOICE (log
entries 2 and 11), which the spec leaves open: the Hall levels and `hw_init_ok` of that step are those the next step of
`s` was going to see, and they are used up here. So where nothing is listed the free values of draw `s.draws` are
listed and `draws` advances, and no later unlisted step sees the same draw (93_implementation_defined.md I8, I9). -/
def State.withFetchWord (s : State) (nbits w : Nat) : State :=
  { s.advanceInputs with
    stimulus :=
      { s.presented with cmd := BitVec.ofNat 35 (w % 2 ^ nbits), rst := false } :: s.advanceInputs.stimulus }

end Sys2Proof.Machine
end

