-- ==== Sys2Proof/Machine/Assembler.lean ====
section
/-! DEFINITION. The assembler notation of host programs (spec/30_encoding.md R76), on lists of characters. What R76
leaves open about blanks and signs is log entry 9. -/

namespace Sys2Proof.Machine

/-- The blank-separated tokens of a line; `cur` holds the token being read, last character first. -/
def tokensFrom (cur : List Char) (line : List Char) : List (List Char) :=
  match line with
  | [] => if cur.isEmpty then [] else [cur.reverse]
  | c :: rest =>
    if c = ' ' then
      if cur.isEmpty then tokensFrom [] rest else cur.reverse :: tokensFrom [] rest
    else tokensFrom (c :: cur) rest

/-- The value of a decimal or hexadecimal digit. -/
def digitValue (base : Nat) (c : Char) : Option Nat :=
  let v :=
    if '0' ≤ c ∧ c ≤ '9' then c.toNat - '0'.toNat
    else if 'a' ≤ c ∧ c ≤ 'f' then c.toNat - 'a'.toNat + 10
    else if 'A' ≤ c ∧ c ≤ 'F' then c.toNat - 'A'.toNat + 10
    else 16
  if v < base then some v else none

/-- Digits read from the most significant on, after the value `acc`. -/
def digitsFrom (base acc : Nat) (ds : List Char) : Option Nat :=
  match ds with
  | [] => some acc
  | c :: rest =>
    match digitValue base c with
    | some v => digitsFrom base (acc * base + v) rest
    | none => none

/-- An unsigned integer: decimal, or hexadecimal after `0x`. -/
def parseNat (ds : List Char) : Option Nat :=
  match ds with
  | [] => none
  | '0' :: 'x' :: hex => if hex.isEmpty then none else digitsFrom 16 0 hex
  | dec => digitsFrom 10 0 dec

/-- An integer, with an optional minus sign. -/
def parseInt (ds : List Char) : Option Int :=
  match ds with
  | '-' :: rest => (parseNat rest).map fun n => -(n : Int)
  | rest => (parseNat rest).map fun n => (n : Int)

/-- The command that a line names: a mnemonic of R76, with an integer after SET_SPEED. The reserved opcode has no
mnemonic. -/
def parseCommand (tokens : List (List Char)) : Option Instr :=
  match tokens with
  | [m] =>
    if m = ['N', 'O', 'P'] then some .nop
    else if m = ['I', 'N', 'I', 'T'] then some .init
    else if m = ['S', 'T', 'A', 'R', 'T'] then some .start
    else if m = ['S', 'T', 'O', 'P'] then some .stop
    else if m = ['G', 'E', 'T', '_', 'S', 'P', 'E', 'E', 'D'] then some .getSpeed
    else if m = ['U', 'P', 'D', 'A', 'T', 'E'] then some .update
    else none
  | [m, x] =>
    if m = ['S', 'E', 'T', '_', 'S', 'P', 'E', 'E', 'D'] then (parseInt x).map Instr.setSpeed else none
  | _ => none

/-- Assemble one line: a comment begins at `;`, and an operand out of range is an assembly error (none). -/
def assembleLine (signed : Bool) (line : List Char) : Option CmdWord :=
  match parseCommand (tokensFrom [] (line.takeWhile (· ≠ ';'))) with
  | some i => assemble signed i
  | none => none

/-- One Hall level, `0` or `1`. -/
def levelOf (c : Char) : Option Bool :=
  if c = '0' then some false else if c = '1' then some true else none

/-- The levels A, B and C of a comment token `hall=ABC`. -/
def hallToken (token : List Char) : Option (Bool × Bool × Bool) :=
  match token with
  | ['h', 'a', 'l', 'l', '=', a, b, c] =>
    match levelOf a, levelOf b, levelOf c with
    | some x, some y, some z => some (x, y, z)
    | _, _, _ => none
  | _ => none

/-- The Hall levels that a line carries in its comment, if it does (30_encoding.md R76). -/
def hallComment (line : List Char) : Option (Bool × Bool × Bool) :=
  (tokensFrom [] ((line.dropWhile (· ≠ ';')).drop 1)).findSome? hallToken

end Sys2Proof.Machine
end

