-- ==== Sys2Proof/Machine/Ports.lean ====
section
/-! DEFINITION. The output ports (spec/10_state.md R32, R33). The input ports are `StepInput` in Machine/State.lean. -/

namespace Sys2Proof.Machine

/-- The output ports, for duty ports of `w` bits (10_state.md R32). -/
structure Outputs (w : Nat) where
  dutyA : BitVec w
  dutyB : BitVec w
  dutyC : BitVec w
  respStatus : BitVec 2
  respData : BitVec 32
  stReady : Bool
  stFailed : Bool
  stRunning : Bool
  stHallFault : Bool
  deriving DecidableEq, Repr

/-- "Every output port is a direct copy of the state element" (10_state.md R33). -/
def outputs (s : State) : Outputs (dutyW s.params) :=
  { dutyA := BitVec.ofNat _ s.phaseDuty.a
    dutyB := BitVec.ofNat _ s.phaseDuty.b
    dutyC := BitVec.ofNat _ s.phaseDuty.c
    respStatus := s.respStatus.code
    respData := s.respData
    stReady := s.initState == .ready
    stFailed := s.initState == .failed
    stRunning := s.isRunning
    stHallFault := s.hallFault }

end Sys2Proof.Machine
end

