-- ==== Sys2Proof/Safety.lean ====
section
/-! DEFINITION. What counts as a good state: the invariant of spec/43_controller_commands.md R184, with the
parameter constraints of spec/00_scope.md R5 and spec/40_commutation_table.md R103. -/

namespace Sys2Proof.Machine

/-- All three phases receive 0. -/
abbrev State.Deenergised (s : State) : Prop := s.phaseDuty = ⟨0, 0, 0⟩

/-- Stopped, every phase 0, speed 0 and no Hall fault: what R184 says of UNINIT and FAILED. -/
abbrev State.AllZero (s : State) : Prop :=
  s.commandedSpeed = 0 ∧ s.isRunning = false ∧ s.Deenergised ∧ s.hallFault = false

/-- The phases and the Hall-fault flag are those of a commutation update with the present duty and some code. -/
abbrev State.ShowsSomeCode (s : State) : Prop :=
  ∃ code : HallCode, s.phaseDuty = phaseMux (lookup s.comm code) s.dutyCycle ∧ s.hallFault = invalidCode code

/-- The reachable states of 43_controller_commands.md R184 ("the response registers are left aside"). -/
structure State.Inv (s : State) : Prop where
  params : s.params.Admissible
  table : AdmissibleTable s.comm
  speed : s.commandedSpeed ≤ s.params.maxRpm
  duty : s.dutyCycle = scaleDuty s.params s.commandedSpeed
  notReady : s.initState ≠ .ready → s.AllZero
  stopped : s.isRunning = false → s.Deenergised
  running : s.isRunning = true → s.ShowsSomeCode

/-- The R20 elements of a state other than the response registers, with the parameters: what R184 speaks of. -/
abbrev State.SameButResponse (s t : State) : Prop :=
  s.params = t.params ∧ s.comm = t.comm ∧ s.commandedSpeed = t.commandedSpeed ∧ s.isRunning = t.isRunning ∧
  s.dutyCycle = t.dutyCycle ∧ s.phaseDuty = t.phaseDuty ∧ s.initState = t.initState ∧ s.hallFault = t.hallFault

/-- The commands that perform a commutation update, and so sample the Hall inputs, in the state `s`
(20_memory.md R52, 42_phase_mux.md R146). -/
abbrev Commutates (i : Instr) (s : State) : Prop :=
  (i = .start ∧ s.initState = .ready) ∨
  ((∃ rpm, i = .setSpeed rpm) ∧ s.initState = .ready ∧ s.isRunning = true) ∨
  (i = .update ∧ s.isRunning = true)

/-- `s` with other inputs to come. -/
abbrev State.withInputs (s : State) (xs : List StepInput) (n : Nat) : State :=
  { s with stimulus := xs, draws := n }

/-- The run of as many steps as inputs are given, from `s` with exactly those inputs presented. -/
def State.runInputs (s : State) (xs : List StepInput) : Host.Outcome State Fault Refusal :=
  Host.Core.run Sys2Proof.core xs.length { s with stimulus := xs }

end Sys2Proof.Machine
end

