-- ==== Sys2Proof/Certificates/Slice0/Obligations.lean ====
section
/-! DEFINITION. The statements for the provers. Each docstring names the rule of spec/ it comes from. -/

open Sys2Proof Sys2Proof.Machine

/-! ### Commands: what each one answers, for every state -/

/-- 43_controller_commands.md R160: NOP only responds (OK, 0), in every state. -/
def Obligations.NopRespondsOkAndChangesNothingElse : Prop :=
  ∀ s : State, exec .nop s = .next { s with respStatus := .ok, respData := 0 }

/-- 43_controller_commands.md R163, R164, R165: INIT re-initialises from UNINIT and READY and samples `hw_init_ok`;
in FAILED it only responds HW_FAIL. -/
def Obligations.InitReinitialisesOutsideFailed : Prop :=
  ∀ s : State,
    (s.initState ≠ .failed → s.presented.hwInitOk = true →
      exec .init s = .next { s with
        commandedSpeed := 0, dutyCycle := 0, isRunning := false, phaseDuty := ⟨0, 0, 0⟩, hallFault := false
        initState := .ready, respStatus := .ok, respData := 0 }) ∧
    (s.initState ≠ .failed → s.presented.hwInitOk = false →
      exec .init s = .next { s with
        commandedSpeed := 0, dutyCycle := 0, isRunning := false, phaseDuty := ⟨0, 0, 0⟩, hallFault := false
        initState := .failed, respStatus := .hwFail, respData := 0 }) ∧
    (s.initState = .failed → exec .init s = .next { s with respStatus := .hwFail, respData := 0 })

/-- 43_controller_commands.md R166, R167: in READY, SET_SPEED writes the clamped speed and its duty, and while
running it commutates with the new duty; before READY it only responds. -/
def Obligations.SetSpeedClampsScalesAndCommutates : Prop :=
  ∀ (rpm : Int) (s : State) (v : Nat), (v : Int) = min (max rpm 0) (s.params.maxRpm : Int) →
    (s.initState = .ready → s.isRunning = false →
      exec (.setSpeed rpm) s = .next { s with
        commandedSpeed := v, dutyCycle := v * s.params.pwmRange / s.params.maxRpm
        respStatus := .ok, respData := 0 }) ∧
    (s.initState = .ready → s.isRunning = true →
      exec (.setSpeed rpm) s = .next { s with
        commandedSpeed := v, dutyCycle := v * s.params.pwmRange / s.params.maxRpm
        phaseDuty := phaseMux (lookup s.comm (hallRead s)) (v * s.params.pwmRange / s.params.maxRpm)
        hallFault := decide (hallRead s = 0#3 ∨ hallRead s = 7#3)
        respStatus := .ok, respData := 0 }) ∧
    (s.initState = .uninit → exec (.setSpeed rpm) s = .next { s with respStatus := .notInit, respData := 0 }) ∧
    (s.initState = .failed → exec (.setSpeed rpm) s = .next { s with respStatus := .hwFail, respData := 0 })

/-- 43_controller_commands.md R169, R170: in READY, START sets `isRunning` and commutates with the current duty;
before READY it energises nothing. -/
def Obligations.StartRunsAndCommutatesInReady : Prop :=
  ∀ s : State,
    (s.initState = .ready →
      exec .start s = .next { s with
        isRunning := true
        phaseDuty := phaseMux (lookup s.comm (hallRead s)) s.dutyCycle
        hallFault := decide (hallRead s = 0#3 ∨ hallRead s = 7#3)
        respStatus := .ok, respData := 0 }) ∧
    (s.initState = .uninit → exec .start s = .next { s with respStatus := .notInit, respData := 0 }) ∧
    (s.initState = .failed → exec .start s = .next { s with respStatus := .hwFail, respData := 0 })

/-- 43_controller_commands.md R172: STOP clears `isRunning` and all three phases in every `initState`, keeps all
else, and reports the state it acted in. -/
def Obligations.StopDeenergisesInEveryInitState : Prop :=
  ∀ s : State, exec .stop s = .next { s with
    isRunning := false
    phaseDuty := ⟨0, 0, 0⟩
    respStatus := if s.initState = .ready then .ok else if s.initState = .uninit then .notInit else .hwFail
    respData := 0 }

/-- 43_controller_commands.md R175: GET_SPEED responds with the commanded speed, zero-extended to 32 bits, and changes
nothing else; in the good states that are not READY the data is 0. The premise on the speed is the invariant's clause
that it is legal (10_state.md R21). -/
def Obligations.GetSpeedRespondsWithCommandedSpeed : Prop :=
  ∀ s : State, s.params.Admissible → s.commandedSpeed ≤ s.params.maxRpm →
    ∃ d : BitVec 32, d.toNat = s.commandedSpeed ∧
      exec .getSpeed s = .next { s with
        respStatus := if s.initState = .ready then .ok else if s.initState = .uninit then .notInit else .hwFail
        respData := d } ∧
      (s.Inv → s.initState ≠ .ready → d = 0)

/-- 43_controller_commands.md R178: UPDATE commutates if running, and otherwise only responds. -/
def Obligations.UpdateCommutatesOnlyWhenRunning : Prop :=
  ∀ s : State,
    (s.isRunning = true →
      exec .update s = .next { s with
        phaseDuty := phaseMux (lookup s.comm (hallRead s)) s.dutyCycle
        hallFault := decide (hallRead s = 0#3 ∨ hallRead s = 7#3)
        respStatus := if s.initState = .ready then .ok else if s.initState = .uninit then .notInit else .hwFail
        respData := 0 }) ∧
    (s.isRunning = false →
      exec .update s = .next { s with
        respStatus := if s.initState = .ready then .ok else if s.initState = .uninit then .notInit else .hwFail
        respData := 0 })

/-- 43_controller_commands.md R181, 60_exceptions.md R205: the reserved opcode only responds (ILLEGAL, 0). -/
def Obligations.ReservedOpcodeRespondsIllegalOnly : Prop :=
  ∀ s : State, exec .reserved s = .next { s with respStatus := .illegal, respData := 0 }

/-- The status codes and the data of every response, as 60_exceptions.md R201 gives them. The status of each command in
each `initState` is the spec's own inference in 43_controller_commands.md R183 ("[derived: from rules R160 to R181]").
For a legal speed the data of GET_SPEED is the speed; for a speed that no 32 bits hold, which no reachable state has,
it is the model's choice (log entry 5, DESIGN CHOICE). -/
def Obligations.ResponseOfEveryCommand : Prop :=
  (RespStatus.ok.code = 0b00#2 ∧ RespStatus.hwFail.code = 0b01#2 ∧
    RespStatus.notInit.code = 0b10#2 ∧ RespStatus.illegal.code = 0b11#2) ∧
  ∀ (i : Instr) (s : State), ∃ t, exec i s = .next t ∧
    (i ≠ .getSpeed → t.respData = 0) ∧
    (i = .getSpeed → s.params.Admissible → s.commandedSpeed ≤ s.params.maxRpm →
      t.respData.toNat = s.commandedSpeed) ∧
    (i = .getSpeed → t.respData = BitVec.ofNat 32 s.commandedSpeed) ∧
    (i = .nop → t.respStatus = .ok) ∧
    (i = .reserved → t.respStatus = .illegal) ∧
    (i = .init → s.initState ≠ .failed → s.presented.hwInitOk = true → t.respStatus = .ok) ∧
    (i = .init → s.initState = .failed ∨ s.presented.hwInitOk = false → t.respStatus = .hwFail) ∧
    (i ≠ .nop → i ≠ .reserved → i ≠ .init →
      (s.initState = .ready → t.respStatus = .ok) ∧
      (s.initState = .uninit → t.respStatus = .notInit) ∧
      (s.initState = .failed → t.respStatus = .hwFail))

/-- The frame of every command (10_state.md R20, column "written by"): what a command leaves unchanged. `stimulus`,
`draws` and `params` are the model's own fields (log entries 1 and 2). -/
def Obligations.FrameOfEveryCommand : Prop :=
  ∀ (i : Instr) (s t : State), exec i s = .next t →
    t.params = s.params ∧ t.comm = s.comm ∧ t.stimulus = s.stimulus ∧ t.draws = s.draws ∧
    (i ≠ .init → t.initState = s.initState) ∧
    (i ≠ .init → (∀ rpm, i ≠ .setSpeed rpm) → t.commandedSpeed = s.commandedSpeed ∧ t.dutyCycle = s.dutyCycle) ∧
    (i ≠ .init → i ≠ .start → i ≠ .stop → t.isRunning = s.isRunning) ∧
    (i ≠ .init → i ≠ .stop → ¬ Commutates i s → t.phaseDuty = s.phaseDuty) ∧
    (i ≠ .init → ¬ Commutates i s → t.hallFault = s.hallFault) ∧
    (s.initState = .failed → i ≠ .stop → i ≠ .update →
      t = { s with respStatus := t.respStatus, respData := t.respData })

/-! ### The three sub-blocks -/

/-- 40_commutation_table.md R100: the Hall code of the sampled levels. -/
def Obligations.HallCodeComposition : Prop :=
  ∀ s : State, (hallRead s).toNat =
    4 * s.presented.hallA.toNat + 2 * s.presented.hallB.toNat + s.presented.hallC.toNat

/-- 40_commutation_table.md R104: the default table, entry by entry, and its closed form. -/
def Obligations.DefaultTableContents : Prop :=
  lookup State.reset.comm 0#3 = ⟨false, false, false⟩ ∧
  lookup State.reset.comm 1#3 = ⟨true, false, false⟩ ∧
  lookup State.reset.comm 2#3 = ⟨false, true, false⟩ ∧
  lookup State.reset.comm 3#3 = ⟨true, true, false⟩ ∧
  lookup State.reset.comm 4#3 = ⟨false, false, true⟩ ∧
  lookup State.reset.comm 5#3 = ⟨true, false, true⟩ ∧
  lookup State.reset.comm 6#3 = ⟨false, true, true⟩ ∧
  lookup State.reset.comm 7#3 = ⟨false, false, false⟩ ∧
  ∀ code : HallCode, code ≠ 7#3 →
    lookup State.reset.comm code = ⟨code.getLsbD 0, code.getLsbD 1, code.getLsbD 2⟩

/-- The spec's own inference in 40_commutation_table.md R104 ("[derived: exhaustive enumeration ...]"): exactly four
tables satisfy R102 and R103. -/
def Obligations.ExactlyFourTablesAreAdmissible : Prop :=
  ∀ t : CommTable, AdmissibleTable t ↔
    t = defaultTable ∨
    t = tableOf ⟨true, true, true⟩ ⟨false, true, false⟩ ⟨false, false, true⟩ ⟨false, true, true⟩ ∨
    t = tableOf ⟨true, false, false⟩ ⟨true, true, true⟩ ⟨false, false, true⟩ ⟨false, true, true⟩ ∨
    t = tableOf ⟨true, false, false⟩ ⟨false, true, false⟩ ⟨true, true, true⟩ ⟨false, true, true⟩

/-- 40_commutation_table.md R102: what UPDATE drives for the codes that MC fixes, whatever the admissible table. -/
def Obligations.UpdateDrivesTheFixedCodes : Prop :=
  ∀ s : State, AdmissibleTable s.comm → s.initState = .ready → s.isRunning = true →
    ∃ t, exec .update s = .next t ∧
      (hallRead s = 3#3 → t.phaseDuty = ⟨s.dutyCycle, s.dutyCycle, 0⟩) ∧
      (hallRead s = 5#3 → t.phaseDuty = ⟨s.dutyCycle, 0, s.dutyCycle⟩) ∧
      (hallRead s = 0#3 ∨ hallRead s = 7#3 → t.phaseDuty = ⟨0, 0, 0⟩)

/-- 41_speed_scaler.md R120: the clamp, its corner cases, and that its value fits SPEED_W bits. -/
def Obligations.ClampSpeedLimitsTheOperand : Prop :=
  ∀ (p : Params) (rpm : Int),
    (rpm < 0 → clampSpeed p rpm = 0) ∧
    ((p.maxRpm : Int) < rpm → clampSpeed p rpm = p.maxRpm) ∧
    (0 ≤ rpm → rpm ≤ (p.maxRpm : Int) → (clampSpeed p rpm : Int) = rpm) ∧
    clampSpeed p rpm < 2 ^ speedW p

/-- 41_speed_scaler.md R121: clamping is never an error. A SET_SPEED with any operand completes with status OK exactly
as one whose operand is in range. -/
def Obligations.ClampingIsNeverAnError : Prop :=
  ∀ (rpm : Int) (s : State), s.initState = .ready →
    ∃ (rpm' : Int) (t : State), 0 ≤ rpm' ∧ rpm' ≤ (s.params.maxRpm : Int) ∧
      exec (.setSpeed rpm) s = .next t ∧ exec (.setSpeed rpm') s = .next t ∧
      t.respStatus = .ok ∧ t.respData = 0

/-- 41_speed_scaler.md R122: the duty is the exact quotient, truncated; it lies in `[0, PWM_RANGE]` and fits DUTY_W
bits; and MC's example. -/
def Obligations.ScaleDutyIsTheTruncatedQuotient : Prop :=
  (∀ (p : Params) (speed : Nat), p.Admissible → speed ≤ p.maxRpm →
    scaleDuty p speed * p.maxRpm ≤ speed * p.pwmRange ∧
    speed * p.pwmRange < (scaleDuty p speed + 1) * p.maxRpm ∧
    scaleDuty p speed ≤ p.pwmRange ∧ scaleDuty p speed < 2 ^ dutyW p) ∧
  (∀ p : Params, p.maxRpm = 5000 → p.pwmRange = 1024 → scaleDuty p 2500 = 512)

/-- The spec's own inference in 41_speed_scaler.md R123 ("[derived: from rule R122]"), properties 1 to 5. -/
def Obligations.ScaleDutyEndpointsAndMonotonicity : Prop :=
  ∀ p : Params, p.Admissible →
    scaleDuty p 0 = 0 ∧
    scaleDuty p p.maxRpm = p.pwmRange ∧
    (∀ speed, speed ≤ p.maxRpm → scaleDuty p speed = p.pwmRange → speed = p.maxRpm) ∧
    (∀ u v, u ≤ v → v ≤ p.maxRpm → scaleDuty p u ≤ scaleDuty p v) ∧
    (∀ speed, speed ≤ p.maxRpm → (scaleDuty p speed = 0 ↔ speed * p.pwmRange < p.maxRpm))

/-- The spec's own inference in 41_speed_scaler.md R123 ("[derived: from rule R122]"), property 6. -/
def Obligations.ScaleDutyStepSizes : Prop :=
  ∀ p : Params, p.Admissible →
    (p.pwmRange ≤ p.maxRpm → ∀ speed, speed + 1 ≤ p.maxRpm →
      scaleDuty p (speed + 1) = scaleDuty p speed ∨ scaleDuty p (speed + 1) = scaleDuty p speed + 1) ∧
    (p.maxRpm < p.pwmRange →
      (∀ u v, u ≤ p.maxRpm → v ≤ p.maxRpm → scaleDuty p u = scaleDuty p v → u = v) ∧
      (∃ d, d ≤ p.pwmRange ∧ ∀ speed, speed ≤ p.maxRpm → scaleDuty p speed ≠ d))

/-- 42_phase_mux.md R140, R141: an enabled phase receives exactly the duty and a disabled phase exactly 0. -/
def Obligations.PhaseMuxDrivesExactlyTheEnabledPhases : Prop :=
  ∀ (pat : Pattern) (d : Nat),
    (pat.enA = true → (phaseMux pat d).a = d) ∧ (pat.enA = false → (phaseMux pat d).a = 0) ∧
    (pat.enB = true → (phaseMux pat d).b = d) ∧ (pat.enB = false → (phaseMux pat d).b = 0) ∧
    (pat.enC = true → (phaseMux pat d).c = d) ∧ (pat.enC = false → (phaseMux pat d).c = 0)

/-- 42_phase_mux.md R143: all that a commutation update writes; and a command performs one only in a step where
`isRunning = 1` then holds, with the duty the step has just written. -/
def Obligations.CommutationUpdateWritesPhasesAndFault : Prop :=
  (∀ s : State, commutationUpdate s = { s with
    phaseDuty := phaseMux (lookup s.comm (hallRead s)) s.dutyCycle
    hallFault := decide (hallRead s = 0#3 ∨ hallRead s = 7#3) }) ∧
  (∀ (i : Instr) (s : State), Commutates i s →
    ∃ t, exec i s = .next t ∧ t.isRunning = true ∧
      t.phaseDuty = phaseMux (lookup s.comm (hallRead s)) t.dutyCycle ∧
      t.hallFault = decide (hallRead s = 0#3 ∨ hallRead s = 7#3))

/-- 42_phase_mux.md R145: an invalid code is no error. The running block de-energises, stays running, responds OK and
sets `hallFault`; a valid code drives the phases from the table again and clears it. -/
def Obligations.InvalidHallCodeDeenergisesWithoutError : Prop :=
  ∀ (i : Instr) (s : State), AdmissibleTable s.comm → s.initState = .ready → s.isRunning = true →
    (i = .start ∨ i = .update ∨ ∃ rpm, i = .setSpeed rpm) →
    ∃ t, exec i s = .next t ∧ t.isRunning = true ∧ t.respStatus = .ok ∧
      (hallRead s = 0#3 ∨ hallRead s = 7#3 → t.phaseDuty = ⟨0, 0, 0⟩ ∧ t.hallFault = true) ∧
      (hallRead s ≠ 0#3 → hallRead s ≠ 7#3 →
        t.phaseDuty = phaseMux (lookup s.comm (hallRead s)) t.dutyCycle ∧ t.hallFault = false)

/-- The spec's own inference in 42_phase_mux.md R144 ("[derived: from rule R143 ...]"): after an UPDATE, an UPDATE that
samples the same Hall code changes nothing, whatever the later inputs are. -/
def Obligations.UpdateIsIdempotent : Prop :=
  ∀ (s t : State) (xs : List StepInput) (n : Nat), exec .update s = .next t →
    hallRead (t.withInputs xs n) = hallRead s →
    exec .update (t.withInputs xs n) = .next (t.withInputs xs n)

/-- The spec's own inference in 43_controller_commands.md R171 ("[derived: from rule R169]"): START while running
equals UPDATE. -/
def Obligations.StartWhileRunningEqualsUpdate : Prop :=
  ∀ s : State, s.initState = .ready → s.isRunning = true → exec .start s = exec .update s

/-! ### What a command may read -/

/-- 20_memory.md R52: a command that performs no commutation update does not read the Hall inputs. With other inputs
that agree on `hw_init_ok`, it answers the same state. The inputs' form is the model's (log entry 2). -/
def Obligations.OnlyCommutationUpdatesReadTheHallInputs : Prop :=
  ∀ (i : Instr) (s : State) (xs : List StepInput) (n : Nat), ¬ Commutates i s →
    (s.withInputs xs n).presented.hwInitOk = s.presented.hwInitOk →
    ∃ t, exec i s = .next t ∧ exec i (s.withInputs xs n) = .next (t.withInputs xs n)

/-- 70_reset_and_hazards.md R234: a command other than INIT ignores `hw_init_ok`. With other inputs that agree on the
Hall code, it answers the same state. The inputs' form is the model's (log entry 2). -/
def Obligations.OnlyInitReadsHwInitOk : Prop :=
  ∀ (i : Instr) (s : State) (xs : List StepInput) (n : Nat), i ≠ .init →
    hallRead (s.withInputs xs n) = hallRead s →
    ∃ t, exec i s = .next t ∧ exec i (s.withInputs xs n) = .next (t.withInputs xs n)

/-! ### Encoding -/

/-- 30_encoding.md R72: `cmd[34:32]` selects the command. -/
def Obligations.OpcodeFieldSelectsTheCommand : Prop :=
  ∀ (signed : Bool) (w : CmdWord),
    (w.extractLsb 34 32 = 0b000#3 → decode signed w = .nop) ∧
    (w.extractLsb 34 32 = 0b001#3 → decode signed w = .init) ∧
    (w.extractLsb 34 32 = 0b010#3 → ∃ rpm, decode signed w = .setSpeed rpm) ∧
    (w.extractLsb 34 32 = 0b011#3 → decode signed w = .start) ∧
    (w.extractLsb 34 32 = 0b100#3 → decode signed w = .stop) ∧
    (w.extractLsb 34 32 = 0b101#3 → decode signed w = .getSpeed) ∧
    (w.extractLsb 34 32 = 0b110#3 → decode signed w = .update) ∧
    (w.extractLsb 34 32 = 0b111#3 → decode signed w = .reserved)

/-- 30_encoding.md R71, R74: the SET_SPEED operand is `sint(arg)` or `uint(arg)` by RPM_IN_SIGNED, with the ranges R71
gives; and words that differ only in `arg` encode the same command, unless the opcode is SET_SPEED. -/
def Obligations.ArgIsReadBySetSpeedAlone : Prop :=
  (∀ w : CmdWord, w.extractLsb 34 32 = 0b010#3 →
    decode true w = .setSpeed (w.extractLsb 31 0).toInt ∧
    -2 ^ 31 ≤ (w.extractLsb 31 0).toInt ∧ (w.extractLsb 31 0).toInt ≤ 2 ^ 31 - 1 ∧
    decode false w = .setSpeed ((w.extractLsb 31 0).toNat : Int) ∧
    ((w.extractLsb 31 0).toNat : Int) ≤ 2 ^ 32 - 1) ∧
  (∀ (signed : Bool) (w w' : CmdWord), w.extractLsb 34 32 = w'.extractLsb 34 32 →
    w.extractLsb 34 32 ≠ 0b010#3 → decode signed w = decode signed w')

/-- 30_encoding.md R77: the words the spec writes out. -/
def Obligations.WordsOfTheEncodingTable : Prop :=
  decode true 0x000000000#35 = .nop ∧
  decode true 0x100000000#35 = .init ∧
  decode true 0x200000000#35 = .setSpeed 0 ∧
  decode true 0x2000003E8#35 = .setSpeed 1000 ∧
  decode true 0x2000009C4#35 = .setSpeed 2500 ∧
  decode true 0x200001388#35 = .setSpeed 5000 ∧
  decode true 0x2FFFFFFFF#35 = .setSpeed (-1) ∧
  decode true 0x300000000#35 = .start ∧
  decode true 0x400000000#35 = .stop ∧
  decode true 0x500000000#35 = .getSpeed ∧
  decode true 0x600000000#35 = .update ∧
  decode true 0x700000000#35 = .reserved

/-- Decode and encode agree: for both readings of the operand, decoding the word of a well-formed instruction gives it
back, and every decoded instruction is well-formed. -/
def Obligations.DecodeOfEncodeIsTheInstruction : Prop :=
  ∀ (signed : Bool),
    (∀ i : Instr, WellFormed signed i = true → decode signed (encode i) = i) ∧
    (∀ w : CmdWord, WellFormed signed (decode signed w) = true)

/-- The other direction: encoding what a word decodes to gives the word back, with `arg` cleared where
30_encoding.md R74 says it is ignored. -/
def Obligations.EncodeOfDecodeIsTheCanonicalWord : Prop :=
  ∀ (signed : Bool) (w : CmdWord),
    (w.extractLsb 34 32 = 0b010#3 → encode (decode signed w) = w) ∧
    (w.extractLsb 34 32 ≠ 0b010#3 → (encode (decode signed w)).toNat = w.toNat / 2 ^ 32 * 2 ^ 32)

/-- 30_encoding.md R76: assembling SET_SPEED succeeds exactly on the operands in range, and the assembled word decodes
to the line's command; the reserved opcode cannot be assembled. -/
def Obligations.AssemblerAcceptsExactlyTheOperandRange : Prop :=
  (∀ rpm : Int, (∃ w, assemble true (.setSpeed rpm) = some w) ↔ -2 ^ 31 ≤ rpm ∧ rpm ≤ 2 ^ 31 - 1) ∧
  (∀ rpm : Int, (∃ w, assemble false (.setSpeed rpm) = some w) ↔ 0 ≤ rpm ∧ rpm ≤ 2 ^ 32 - 1) ∧
  (∀ (signed : Bool) (i : Instr) (w : CmdWord), assemble signed i = some w →
    i ≠ .reserved ∧ decode signed w = i)

/-! ### Steps, reset and runs -/

/-- A step that is no reset step runs the decoded command, and then the step's inputs are used up. The list of inputs
and the free values after its end are the model's (log entry 2). -/
def Obligations.StepRunsTheDecodedCommand : Prop :=
  (∀ (i : Instr) (s t : State), s.presented.rst = false → decode s.params.rpmInSigned s.presented.cmd = i →
    exec i s = .next t → step s = .next t.advanceInputs) ∧
  (∀ (s : State) (x : StepInput) (xs : List StepInput), s.stimulus = x :: xs →
    s.presented = x ∧ s.advanceInputs = { s with stimulus := xs }) ∧
  (∀ s : State, s.stimulus = [] →
    s.presented = { cmd := Config.freeCmd s.draws, hallA := Config.freeHallA s.draws, hallB := Config.freeHallB s.draws
                    hallC := Config.freeHallC s.draws, hwInitOk := Config.freeHwInitOk s.draws
                    rst := Config.freeRst s.draws } ∧
    s.advanceInputs = { s with draws := s.draws + 1 })

/-- 70_reset_and_hazards.md R230: a reset step executes no command and writes the reset values; `COMM` stays; and its
state meets every invariant. The parameters' clause is 10_state.md R31's "fixed for the block's life" in the form of the
model's choice to hold them in State (log entry 1, DESIGN CHOICE). -/
def Obligations.ResetStepWritesTheResetValues : Prop :=
  ∀ s : State, s.presented.rst = true →
    ∃ t, step s = .next t ∧ t.initState = .uninit ∧ t.commandedSpeed = 0 ∧ t.dutyCycle = 0 ∧ t.isRunning = false ∧
      t.phaseDuty = ⟨0, 0, 0⟩ ∧ t.hallFault = false ∧ t.respStatus = .ok ∧ t.respData = 0 ∧
      t.comm = s.comm ∧ t.params = s.params ∧
      (s.params.Admissible → AdmissibleTable s.comm → t.Inv)

/-- 70_reset_and_hazards.md R230 and 00_scope.md R5: the state after reset, with the default parameters and the
default table of 40_commutation_table.md R104. -/
def Obligations.StateAfterReset : Prop :=
  State.reset.initState = .uninit ∧ State.reset.commandedSpeed = 0 ∧ State.reset.dutyCycle = 0 ∧
  State.reset.isRunning = false ∧ State.reset.phaseDuty = ⟨0, 0, 0⟩ ∧ State.reset.hallFault = false ∧
  State.reset.respStatus = .ok ∧ State.reset.respData = 0 ∧
  State.reset.params = { maxRpm := 5000, pwmRange := 1024, rpmInSigned := true } ∧
  State.reset.comm = tableOf ⟨true, false, false⟩ ⟨false, true, false⟩ ⟨false, false, true⟩ ⟨false, true, true⟩

/-- The invariant of 43_controller_commands.md R184 holds after reset, for every admissible choice of parameters. -/
def Obligations.InvariantHoldsAtReset : Prop :=
  State.reset.Inv ∧
  ∀ (p : Params) (t : CommTable), p.Admissible → AdmissibleTable t → (State.resetWith p t).Inv

/-- The invariant of 43_controller_commands.md R184 (with 10_state.md R21, R24, R26) is kept by every step, from every
state that has it. -/
def Obligations.EveryStepKeepsTheInvariant : Prop :=
  ∀ s t : State, s.Inv → step s = .next t → t.Inv

/-- The spec's own inference in 43_controller_commands.md R184 ("the reachable states are exactly these", "[derived:
...]"): a state has the invariant exactly if some run from reset, with the same parameters and table, ends in it, the
response registers left aside. -/
def Obligations.ReachableStatesAreExactlyTheInvariant : Prop :=
  ∀ s : State, s.params.Admissible → AdmissibleTable s.comm →
    (s.Inv ↔ ∃ (xs : List StepInput) (t : State),
      (State.resetWith s.params s.comm).runInputs xs = .next t ∧ t.SameButResponse s)

/-- 10_state.md R24: `dutyCycle` is the exact function of `commandedSpeed` after reset, and every step keeps it so. -/
def Obligations.DutyIsAlwaysTheFunctionOfSpeed : Prop :=
  (∀ (p : Params) (t : CommTable), (State.resetWith p t).dutyCycle =
    (State.resetWith p t).commandedSpeed * p.pwmRange / p.maxRpm) ∧
  (∀ s t : State, s.dutyCycle = s.commandedSpeed * s.params.pwmRange / s.params.maxRpm → step s = .next t →
    t.dutyCycle = t.commandedSpeed * t.params.pwmRange / t.params.maxRpm)

/-- The spec's own inference in 10_state.md R26 ("[derived: from rule R25 ...]"): every step keeps "not running implies
all phases zero". -/
def Obligations.EveryStepKeepsStoppedPhasesZero : Prop :=
  ∀ s t : State, (s.isRunning = false → s.phaseDuty = ⟨0, 0, 0⟩) → step s = .next t →
    (t.isRunning = false → t.phaseDuty = ⟨0, 0, 0⟩)

/-- The spec's own inference in 43_controller_commands.md R184 ("[derived: ...]"): every step keeps "running implies
READY". -/
def Obligations.EveryStepKeepsRunningOnlyInReady : Prop :=
  ∀ s t : State, (s.isRunning = true → s.initState = .ready) → step s = .next t →
    (t.isRunning = true → t.initState = .ready)

/-- 10_state.md R27: the codes of `initState`, and its transitions: reset to UNINIT; INIT in UNINIT or READY to READY
or FAILED by `hw_init_ok`; no other change. -/
def Obligations.InitStateTransitions : Prop :=
  (InitState.uninit.code = 0b00#2 ∧ InitState.ready.code = 0b01#2 ∧ InitState.failed.code = 0b10#2) ∧
  ∀ s : State, ∃ t, step s = .next t ∧
    (s.presented.rst = true → t.initState = .uninit) ∧
    (s.presented.rst = false → s.presentedCommand = .init → s.initState ≠ .failed →
      t.initState = if s.presented.hwInitOk then .ready else .failed) ∧
    (s.presented.rst = false → s.presentedCommand ≠ .init ∨ s.initState = .failed → t.initState = s.initState)

/-- 43_controller_commands.md R164: INIT in FAILED changes nothing and responds HW_FAIL; and without a reset, a failed
block stays failed and de-energised through any run of commands, while the run goes on. -/
def Obligations.FailedBlockStaysFailedUntilReset : Prop :=
  (∀ s : State, s.initState = .failed →
    exec .init s = .next { s with respStatus := .hwFail, respData := 0 }) ∧
  (∀ (xs : List StepInput) (s : State), (∀ x ∈ xs, x.rst = false) →
    s.initState = .failed → s.isRunning = false → s.phaseDuty = ⟨0, 0, 0⟩ →
    ∃ t, s.runInputs xs = .next t ∧ t.initState = .failed ∧ t.isRunning = false ∧ t.phaseDuty = ⟨0, 0, 0⟩ ∧
      t.commandedSpeed = s.commandedSpeed)

/-- 70_reset_and_hazards.md R231: a run of one or more reset steps, from any state and whatever else is presented, ends
in the reset state of the block. That the parameters stay is 10_state.md R31's in the form of the model's choice to hold
them in State (log entry 1, DESIGN CHOICE), and the list of inputs is the model's (log entry 2). -/
def Obligations.RunOfResetStepsEndsInTheResetState : Prop :=
  ∀ (xs : List StepInput) (s : State), xs ≠ [] → (∀ x ∈ xs, x.rst = true) →
    ∃ t, s.runInputs xs = .next t ∧ t.SameButResponse (State.resetWith s.params s.comm) ∧
      t.respStatus = .ok ∧ t.respData = 0

/-- 70_reset_and_hazards.md R232: until an INIT, SET_SPEED, START and UPDATE (and all else) leave an uninitialised block
uninitialised, stopped and de-energised with its speed unchanged, through any run of commands. -/
def Obligations.NothingActsBeforeInit : Prop :=
  ∀ (xs : List StepInput) (s : State),
    (∀ x ∈ xs, x.rst = false ∧ decode s.params.rpmInSigned x.cmd ≠ .init) →
    s.initState = .uninit → s.isRunning = false → s.phaseDuty = ⟨0, 0, 0⟩ →
    ∃ t, s.runInputs xs = .next t ∧ t.initState = .uninit ∧ t.isRunning = false ∧ t.phaseDuty = ⟨0, 0, 0⟩ ∧
      t.commandedSpeed = s.commandedSpeed ∧ t.dutyCycle = s.dutyCycle ∧ t.hallFault = s.hallFault

/-- The spec's own inference in 70_reset_and_hazards.md R244 ("[derived: ...]"): the step in which STOP is presented
ends stopped with all phases 0, from every state, reset step or not. -/
def Obligations.StopStepAlwaysEndsDeenergised : Prop :=
  ∀ s : State, s.presentedCommand = .stop →
    ∃ t, step s = .next t ∧ t.isRunning = false ∧ t.phaseDuty = ⟨0, 0, 0⟩

/-- 43_controller_commands.md R174: STOP keeps speed and duty, and a later START, with no SET_SPEED (and no INIT and no
reset, which clear the speed) in between, drives the enabled phases at the duty of the speed commanded before the
STOP. -/
def Obligations.StartAfterStopReusesTheSpeed : Prop :=
  ∀ (s : State) (x y : StepInput) (ys : List StepInput), s.initState = .ready → x.rst = false → y.rst = false →
    decode s.params.rpmInSigned x.cmd = .stop → decode s.params.rpmInSigned y.cmd = .start →
    (∀ z ∈ ys, z.rst = false ∧ decode s.params.rpmInSigned z.cmd ≠ .init ∧
      ∀ rpm, decode s.params.rpmInSigned z.cmd ≠ .setSpeed rpm) →
    (∃ t, s.runInputs [x] = .next t ∧ t.commandedSpeed = s.commandedSpeed ∧ t.dutyCycle = s.dutyCycle ∧
      t.isRunning = false ∧ t.phaseDuty = ⟨0, 0, 0⟩) ∧
    (∃ u, s.runInputs (x :: (ys ++ [y])) = .next u ∧ u.commandedSpeed = s.commandedSpeed ∧
      u.dutyCycle = s.dutyCycle ∧ u.isRunning = true ∧
      u.phaseDuty = phaseMux (lookup s.comm (hallCode y.hallA y.hallB y.hallC)) s.dutyCycle)

/-- 70_reset_and_hazards.md R240: a GET_SPEED in the step after a SET_SPEED returns the new clamped speed, and a START
in that step uses the new duty. -/
def Obligations.CommandAfterSetSpeedSeesTheNewSpeed : Prop :=
  ∀ (s : State) (x y : StepInput) (rpm : Int) (v : Nat),
    s.params.Admissible → s.initState = .ready → x.rst = false → y.rst = false →
    decode s.params.rpmInSigned x.cmd = .setSpeed rpm → (v : Int) = min (max rpm 0) (s.params.maxRpm : Int) →
    (decode s.params.rpmInSigned y.cmd = .getSpeed →
      ∃ t, s.runInputs [x, y] = .next t ∧ t.respStatus = .ok ∧ t.respData.toNat = v) ∧
    (decode s.params.rpmInSigned y.cmd = .start →
      ∃ t, s.runInputs [x, y] = .next t ∧ t.isRunning = true ∧
        t.phaseDuty = phaseMux (lookup s.comm (hallCode y.hallA y.hallB y.hallC))
          (v * s.params.pwmRange / s.params.maxRpm))

/-- 42_phase_mux.md R146: without a commutation update, a step leaves the phases and `hallFault` alone, whatever the
Hall inputs are; only STOP, INIT and a reset step write zeros. -/
def Obligations.NoCommutationUpdateByItself : Prop :=
  ∀ s : State, s.presented.rst = false → ¬ Commutates s.presentedCommand s →
    ∃ t, step s = .next t ∧
      (t.phaseDuty = s.phaseDuty ∨
        ((s.presentedCommand = .stop ∨ s.presentedCommand = .init) ∧ t.phaseDuty = ⟨0, 0, 0⟩)) ∧
      (t.hallFault = s.hallFault ∨ (s.presentedCommand = .init ∧ t.hallFault = false))

/-- No step, reset or not, changes `COMM` (10_state.md R30) or the parameters. The parameters' clause is R31's "fixed for
the block's life" in the form of the model's choice to hold them in State (log entry 1, DESIGN CHOICE). -/
def Obligations.TableAndParametersAreFixed : Prop :=
  ∀ s t : State, step s = .next t → t.comm = s.comm ∧ t.params = s.params

/-- 60_exceptions.md R203: every step completes. It never faults and never refuses. -/
def Obligations.EveryStepCompletes : Prop :=
  ∀ s : State, ∃ t, step s = .next t

/-- From a good state, a step ends with a phase energised only if the block is then READY, running, at a non-zero
speed, and the last commutation update sampled a valid code. -/
def Obligations.EnergisedOnlyWhenReadyAndRunning : Prop :=
  ∀ s t : State, s.Inv → step s = .next t → t.phaseDuty ≠ ⟨0, 0, 0⟩ →
    t.initState = .ready ∧ t.isRunning = true ∧ 0 < t.commandedSpeed ∧ t.hallFault = false

/-- 90_conflicts.md C1: with the default table, "at most two of three phases" are driven. -/
def Obligations.AtMostTwoPhasesWithTheDefaultTable : Prop :=
  ∀ s : State, s.Inv → s.comm = defaultTable →
    s.phaseDuty.a = 0 ∨ s.phaseDuty.b = 0 ∨ s.phaseDuty.c = 0

/-- 00_scope.md R5: `bitlen(n)` is the least width that holds `n`; and in every good state each register holds a legal
value that fits its width (10_state.md R20). -/
def Obligations.RegistersFitTheirWidths : Prop :=
  (∀ n : Nat, n < 2 ^ bitlen n ∧ ∀ w, n < 2 ^ w → bitlen n ≤ w) ∧
  (∀ s : State, s.Inv →
    s.commandedSpeed < 2 ^ speedW s.params ∧
    s.dutyCycle ≤ s.params.pwmRange ∧ s.dutyCycle < 2 ^ dutyW s.params ∧
    s.phaseDuty.a ≤ s.params.pwmRange ∧ s.phaseDuty.b ≤ s.params.pwmRange ∧ s.phaseDuty.c ≤ s.params.pwmRange)

/-- 10_state.md R32, R33: in every good state the output ports are direct copies of the state elements, and no output
depends on an input. -/
def Obligations.OutputsAreCopiesOfState : Prop :=
  ∀ s : State, s.Inv →
    (outputs s).dutyA.toNat = s.phaseDuty.a ∧
    (outputs s).dutyB.toNat = s.phaseDuty.b ∧
    (outputs s).dutyC.toNat = s.phaseDuty.c ∧
    (outputs s).respStatus = s.respStatus.code ∧ (outputs s).respData = s.respData ∧
    ((outputs s).stReady = true ↔ s.initState = .ready) ∧
    ((outputs s).stFailed = true ↔ s.initState = .failed) ∧
    (outputs s).stRunning = s.isRunning ∧ (outputs s).stHallFault = s.hallFault ∧
    (∀ (xs : List StepInput) (n : Nat), outputs (s.withInputs xs n) = outputs s)
end

