-- ==== Sys2Proof/Laws/Encoding.lean ====
section
/-! SUPPORT. The fields of a joined command word. -/

namespace Sys2Proof

/-- The word `{op, arg}` as a number. -/
theorem joinFields_toNat (op : Opcode) (arg : Arg) :
    (joinFields op arg).toNat = op.toNat * 2 ^ 32 + arg.toNat := by
  refine (BitVec.toNat_append op arg).trans ?_
  rw [← Nat.shiftLeft_add_eq_or_of_lt arg.isLt, Nat.shiftLeft_eq]

theorem opField_toNat (w : CmdWord) : (opField w).toNat = w.toNat / 2 ^ 32 := by
  have h : w.toNat < 2 ^ 35 := w.isLt
  simp only [opField, BitVec.extractLsb'_toNat, Nat.shiftRight_eq_div_pow]
  omega

theorem argField_toNat (w : CmdWord) : (argField w).toNat = w.toNat % 2 ^ 32 := by
  simp [argField, BitVec.extractLsb'_toNat]

@[simp] theorem opField_joinFields (op : Opcode) (arg : Arg) : opField (joinFields op arg) = op := by
  apply BitVec.eq_of_toNat_eq
  have h : arg.toNat < 2 ^ 32 := arg.isLt
  rw [opField_toNat, joinFields_toNat]
  omega

@[simp] theorem argField_joinFields (op : Opcode) (arg : Arg) : argField (joinFields op arg) = arg := by
  apply BitVec.eq_of_toNat_eq
  have h : arg.toNat < 2 ^ 32 := arg.isLt
  rw [argField_toNat, joinFields_toNat]
  omega

/-- A command word is its two fields. -/
theorem joinFields_fields (w : CmdWord) : joinFields (opField w) (argField w) = w := by
  apply BitVec.eq_of_toNat_eq
  rw [joinFields_toNat, opField_toNat, argField_toNat]
  omega

/-- What the decoder reads from a joined word depends on its two fields alone. -/
theorem decode_joinFields (signed : Bool) (op : Opcode) (arg : Arg) :
    decode signed (joinFields op arg) =
      match op.toNat with
      | 0 => .nop
      | 1 => .init
      | 2 => .setSpeed (rpmIn signed arg)
      | 3 => .start
      | 4 => .stop
      | 5 => .getSpeed
      | 6 => .update
      | _ => .reserved := by
  simp only [decode, opField_joinFields, argField_joinFields] <;> rfl

end Sys2Proof
end

