-- ==== Sys2Proof/Laws/State.lean ====
section
/-! SUPPORT. One lemma for each field and each update of State: what a primitive writes and what it keeps. -/

namespace Sys2Proof.Machine

section respondFields
variable (r : RespStatus) (d : BitVec 32) (s : State)

@[simp] theorem respond_params : (respond r d s).params = s.params := rfl
@[simp] theorem respond_comm : (respond r d s).comm = s.comm := rfl
@[simp] theorem respond_commandedSpeed : (respond r d s).commandedSpeed = s.commandedSpeed := rfl
@[simp] theorem respond_isRunning : (respond r d s).isRunning = s.isRunning := rfl
@[simp] theorem respond_dutyCycle : (respond r d s).dutyCycle = s.dutyCycle := rfl
@[simp] theorem respond_phaseDuty : (respond r d s).phaseDuty = s.phaseDuty := rfl
@[simp] theorem respond_initState : (respond r d s).initState = s.initState := rfl
@[simp] theorem respond_hallFault : (respond r d s).hallFault = s.hallFault := rfl
@[simp] theorem respond_respStatus : (respond r d s).respStatus = r := rfl
@[simp] theorem respond_respData : (respond r d s).respData = d := rfl
@[simp] theorem respond_stimulus : (respond r d s).stimulus = s.stimulus := rfl
@[simp] theorem respond_draws : (respond r d s).draws = s.draws := rfl

end respondFields

section writeSpeedFields
variable (v : Nat) (s : State)

@[simp] theorem writeSpeed_params : (writeSpeed v s).params = s.params := rfl
@[simp] theorem writeSpeed_comm : (writeSpeed v s).comm = s.comm := rfl
@[simp] theorem writeSpeed_commandedSpeed : (writeSpeed v s).commandedSpeed = v := rfl
@[simp] theorem writeSpeed_isRunning : (writeSpeed v s).isRunning = s.isRunning := rfl
@[simp] theorem writeSpeed_dutyCycle : (writeSpeed v s).dutyCycle = scaleDuty s.params v := rfl
@[simp] theorem writeSpeed_phaseDuty : (writeSpeed v s).phaseDuty = s.phaseDuty := rfl
@[simp] theorem writeSpeed_initState : (writeSpeed v s).initState = s.initState := rfl
@[simp] theorem writeSpeed_hallFault : (writeSpeed v s).hallFault = s.hallFault := rfl
@[simp] theorem writeSpeed_respStatus : (writeSpeed v s).respStatus = s.respStatus := rfl
@[simp] theorem writeSpeed_respData : (writeSpeed v s).respData = s.respData := rfl
@[simp] theorem writeSpeed_stimulus : (writeSpeed v s).stimulus = s.stimulus := rfl
@[simp] theorem writeSpeed_draws : (writeSpeed v s).draws = s.draws := rfl

end writeSpeedFields

section writePhasesFields
variable (d : PhaseDuty) (s : State)

@[simp] theorem writePhases_params : (writePhases d s).params = s.params := rfl
@[simp] theorem writePhases_comm : (writePhases d s).comm = s.comm := rfl
@[simp] theorem writePhases_commandedSpeed : (writePhases d s).commandedSpeed = s.commandedSpeed := rfl
@[simp] theorem writePhases_isRunning : (writePhases d s).isRunning = s.isRunning := rfl
@[simp] theorem writePhases_dutyCycle : (writePhases d s).dutyCycle = s.dutyCycle := rfl
@[simp] theorem writePhases_phaseDuty : (writePhases d s).phaseDuty = d := rfl
@[simp] theorem writePhases_initState : (writePhases d s).initState = s.initState := rfl
@[simp] theorem writePhases_hallFault : (writePhases d s).hallFault = s.hallFault := rfl
@[simp] theorem writePhases_respStatus : (writePhases d s).respStatus = s.respStatus := rfl
@[simp] theorem writePhases_respData : (writePhases d s).respData = s.respData := rfl
@[simp] theorem writePhases_stimulus : (writePhases d s).stimulus = s.stimulus := rfl
@[simp] theorem writePhases_draws : (writePhases d s).draws = s.draws := rfl

end writePhasesFields

section phasesOffFields
variable (s : State)

@[simp] theorem phasesOff_params : (phasesOff s).params = s.params := rfl
@[simp] theorem phasesOff_comm : (phasesOff s).comm = s.comm := rfl
@[simp] theorem phasesOff_commandedSpeed : (phasesOff s).commandedSpeed = s.commandedSpeed := rfl
@[simp] theorem phasesOff_isRunning : (phasesOff s).isRunning = s.isRunning := rfl
@[simp] theorem phasesOff_dutyCycle : (phasesOff s).dutyCycle = s.dutyCycle := rfl
@[simp] theorem phasesOff_phaseDuty : (phasesOff s).phaseDuty = ⟨0, 0, 0⟩ := rfl
@[simp] theorem phasesOff_initState : (phasesOff s).initState = s.initState := rfl
@[simp] theorem phasesOff_hallFault : (phasesOff s).hallFault = s.hallFault := rfl
@[simp] theorem phasesOff_respStatus : (phasesOff s).respStatus = s.respStatus := rfl
@[simp] theorem phasesOff_respData : (phasesOff s).respData = s.respData := rfl
@[simp] theorem phasesOff_stimulus : (phasesOff s).stimulus = s.stimulus := rfl
@[simp] theorem phasesOff_draws : (phasesOff s).draws = s.draws := rfl

end phasesOffFields

section commutationUpdateFields
variable (s : State)

@[simp] theorem commutationUpdate_params : (commutationUpdate s).params = s.params := rfl
@[simp] theorem commutationUpdate_comm : (commutationUpdate s).comm = s.comm := rfl
@[simp] theorem commutationUpdate_commandedSpeed : (commutationUpdate s).commandedSpeed = s.commandedSpeed := rfl
@[simp] theorem commutationUpdate_isRunning : (commutationUpdate s).isRunning = s.isRunning := rfl
@[simp] theorem commutationUpdate_dutyCycle : (commutationUpdate s).dutyCycle = s.dutyCycle := rfl
@[simp] theorem commutationUpdate_phaseDuty : (commutationUpdate s).phaseDuty = phaseMux (lookup s.comm (hallRead s)) s.dutyCycle := rfl
@[simp] theorem commutationUpdate_initState : (commutationUpdate s).initState = s.initState := rfl
@[simp] theorem commutationUpdate_hallFault : (commutationUpdate s).hallFault = invalidCode (hallRead s) := rfl
@[simp] theorem commutationUpdate_respStatus : (commutationUpdate s).respStatus = s.respStatus := rfl
@[simp] theorem commutationUpdate_respData : (commutationUpdate s).respData = s.respData := rfl
@[simp] theorem commutationUpdate_stimulus : (commutationUpdate s).stimulus = s.stimulus := rfl
@[simp] theorem commutationUpdate_draws : (commutationUpdate s).draws = s.draws := rfl

end commutationUpdateFields

section resetBlockFields
variable (s : State)

@[simp] theorem resetBlock_params : (resetBlock s).params = s.params := rfl
@[simp] theorem resetBlock_comm : (resetBlock s).comm = s.comm := rfl
@[simp] theorem resetBlock_commandedSpeed : (resetBlock s).commandedSpeed = 0 := rfl
@[simp] theorem resetBlock_isRunning : (resetBlock s).isRunning = false := rfl
@[simp] theorem resetBlock_dutyCycle : (resetBlock s).dutyCycle = 0 := rfl
@[simp] theorem resetBlock_phaseDuty : (resetBlock s).phaseDuty = ⟨0, 0, 0⟩ := rfl
@[simp] theorem resetBlock_initState : (resetBlock s).initState = .uninit := rfl
@[simp] theorem resetBlock_hallFault : (resetBlock s).hallFault = false := rfl
@[simp] theorem resetBlock_respStatus : (resetBlock s).respStatus = .ok := rfl
@[simp] theorem resetBlock_respData : (resetBlock s).respData = 0 := rfl
@[simp] theorem resetBlock_stimulus : (resetBlock s).stimulus = s.stimulus := rfl
@[simp] theorem resetBlock_draws : (resetBlock s).draws = s.draws := rfl

end resetBlockFields

section stoppedAtZeroFields
variable (s : State)

@[simp] theorem stoppedAtZero_params : (stoppedAtZero s).params = s.params := rfl
@[simp] theorem stoppedAtZero_comm : (stoppedAtZero s).comm = s.comm := rfl
@[simp] theorem stoppedAtZero_commandedSpeed : (stoppedAtZero s).commandedSpeed = 0 := rfl
@[simp] theorem stoppedAtZero_isRunning : (stoppedAtZero s).isRunning = false := rfl
@[simp] theorem stoppedAtZero_dutyCycle : (stoppedAtZero s).dutyCycle = scaleDuty s.params 0 := rfl
@[simp] theorem stoppedAtZero_phaseDuty : (stoppedAtZero s).phaseDuty = ⟨0, 0, 0⟩ := rfl
@[simp] theorem stoppedAtZero_initState : (stoppedAtZero s).initState = s.initState := rfl
@[simp] theorem stoppedAtZero_hallFault : (stoppedAtZero s).hallFault = false := rfl
@[simp] theorem stoppedAtZero_respStatus : (stoppedAtZero s).respStatus = s.respStatus := rfl
@[simp] theorem stoppedAtZero_respData : (stoppedAtZero s).respData = s.respData := rfl
@[simp] theorem stoppedAtZero_stimulus : (stoppedAtZero s).stimulus = s.stimulus := rfl
@[simp] theorem stoppedAtZero_draws : (stoppedAtZero s).draws = s.draws := rfl

end stoppedAtZeroFields

section advanceInputsFields
variable (s : State)

@[simp] theorem State.advanceInputs_params : s.advanceInputs.params = s.params := by
  unfold State.advanceInputs; split <;> rfl

@[simp] theorem State.advanceInputs_comm : s.advanceInputs.comm = s.comm := by
  unfold State.advanceInputs; split <;> rfl

@[simp] theorem State.advanceInputs_commandedSpeed : s.advanceInputs.commandedSpeed = s.commandedSpeed := by
  unfold State.advanceInputs; split <;> rfl

@[simp] theorem State.advanceInputs_isRunning : s.advanceInputs.isRunning = s.isRunning := by
  unfold State.advanceInputs; split <;> rfl

@[simp] theorem State.advanceInputs_dutyCycle : s.advanceInputs.dutyCycle = s.dutyCycle := by
  unfold State.advanceInputs; split <;> rfl

@[simp] theorem State.advanceInputs_phaseDuty : s.advanceInputs.phaseDuty = s.phaseDuty := by
  unfold State.advanceInputs; split <;> rfl

@[simp] theorem State.advanceInputs_initState : s.advanceInputs.initState = s.initState := by
  unfold State.advanceInputs; split <;> rfl

@[simp] theorem State.advanceInputs_hallFault : s.advanceInputs.hallFault = s.hallFault := by
  unfold State.advanceInputs; split <;> rfl

@[simp] theorem State.advanceInputs_respStatus : s.advanceInputs.respStatus = s.respStatus := by
  unfold State.advanceInputs; split <;> rfl

@[simp] theorem State.advanceInputs_respData : s.advanceInputs.respData = s.respData := by
  unfold State.advanceInputs; split <;> rfl

end advanceInputsFields

section phaseWriteFields
variable (p : Phase) (v : Nat) (s : State)

@[simp] theorem phaseWrite_params : (phaseWrite p v s).params = s.params := by cases p <;> rfl
@[simp] theorem phaseWrite_comm : (phaseWrite p v s).comm = s.comm := by cases p <;> rfl
@[simp] theorem phaseWrite_commandedSpeed : (phaseWrite p v s).commandedSpeed = s.commandedSpeed := by cases p <;> rfl
@[simp] theorem phaseWrite_isRunning : (phaseWrite p v s).isRunning = s.isRunning := by cases p <;> rfl
@[simp] theorem phaseWrite_dutyCycle : (phaseWrite p v s).dutyCycle = s.dutyCycle := by cases p <;> rfl
@[simp] theorem phaseWrite_initState : (phaseWrite p v s).initState = s.initState := by cases p <;> rfl
@[simp] theorem phaseWrite_hallFault : (phaseWrite p v s).hallFault = s.hallFault := by cases p <;> rfl
@[simp] theorem phaseWrite_respStatus : (phaseWrite p v s).respStatus = s.respStatus := by cases p <;> rfl
@[simp] theorem phaseWrite_respData : (phaseWrite p v s).respData = s.respData := by cases p <;> rfl
@[simp] theorem phaseWrite_stimulus : (phaseWrite p v s).stimulus = s.stimulus := by cases p <;> rfl
@[simp] theorem phaseWrite_draws : (phaseWrite p v s).draws = s.draws := by cases p <;> rfl

end phaseWriteFields

section commutateIfRunningFields
variable (s : State)

@[simp] theorem commutateIfRunning_params : (commutateIfRunning s).params = s.params := by
  unfold commutateIfRunning; split <;> rfl

@[simp] theorem commutateIfRunning_comm : (commutateIfRunning s).comm = s.comm := by
  unfold commutateIfRunning; split <;> rfl

@[simp] theorem commutateIfRunning_commandedSpeed : (commutateIfRunning s).commandedSpeed = s.commandedSpeed := by
  unfold commutateIfRunning; split <;> rfl

@[simp] theorem commutateIfRunning_isRunning : (commutateIfRunning s).isRunning = s.isRunning := by
  unfold commutateIfRunning; split <;> rfl

@[simp] theorem commutateIfRunning_dutyCycle : (commutateIfRunning s).dutyCycle = s.dutyCycle := by
  unfold commutateIfRunning; split <;> rfl

@[simp] theorem commutateIfRunning_initState : (commutateIfRunning s).initState = s.initState := by
  unfold commutateIfRunning; split <;> rfl

@[simp] theorem commutateIfRunning_respStatus : (commutateIfRunning s).respStatus = s.respStatus := by
  unfold commutateIfRunning; split <;> rfl

@[simp] theorem commutateIfRunning_respData : (commutateIfRunning s).respData = s.respData := by
  unfold commutateIfRunning; split <;> rfl

@[simp] theorem commutateIfRunning_stimulus : (commutateIfRunning s).stimulus = s.stimulus := by
  unfold commutateIfRunning; split <;> rfl

@[simp] theorem commutateIfRunning_draws : (commutateIfRunning s).draws = s.draws := by
  unfold commutateIfRunning; split <;> rfl

end commutateIfRunningFields

end Sys2Proof.Machine
end

