-- ==== Sys2Proof/Laws/Ops.lean ====
section
/-! SUPPORT. What each shared operation does, said once: as one record update, or as the cases of its result. -/

namespace Sys2Proof.Machine

theorem respond_eq (r : RespStatus) (d : BitVec 32) (s : State) :
    respond r d s = { s with respStatus := r, respData := d } := rfl

theorem writeSpeed_eq (v : Nat) (s : State) :
    writeSpeed v s = { s with commandedSpeed := v, dutyCycle := scaleDuty s.params v } := rfl

theorem writePhases_eq (d : PhaseDuty) (s : State) : writePhases d s = { s with phaseDuty := d } := rfl

theorem phasesOff_eq (s : State) : phasesOff s = { s with phaseDuty := ⟨0, 0, 0⟩ } := rfl

theorem commutationUpdate_eq (s : State) :
    commutationUpdate s =
      { s with
        phaseDuty := phaseMux (lookup s.comm (hallRead s)) s.dutyCycle
        hallFault := invalidCode (hallRead s) } := rfl

theorem commutateIfRunning_cases (s : State) :
    (s.isRunning = true ∧ commutateIfRunning s = commutationUpdate s) ∨
    (s.isRunning = false ∧ commutateIfRunning s = s) := by
  unfold commutateIfRunning
  cases s.isRunning <;> simp

/-- What a sequence of operations did to the inputs decides what is presented afterwards. -/
theorem presented_congr {s t : State} (hs : t.stimulus = s.stimulus) (hd : t.draws = s.draws) :
    t.presented = s.presented := by
  unfold State.presented
  rw [hs, hd]

theorem hallRead_congr {s t : State} (hs : t.stimulus = s.stimulus) (hd : t.draws = s.draws) :
    hallRead t = hallRead s := by
  unfold hallRead
  rw [presented_congr hs hd]

@[simp] theorem presented_listed (s : State) (x : StepInput) (xs : List StepInput) :
    ({ s with stimulus := x :: xs } : State).presented = x := rfl

@[simp] theorem advanceInputs_listed (s : State) (x : StepInput) (xs : List StepInput) :
    ({ s with stimulus := x :: xs } : State).advanceInputs = { s with stimulus := xs } := rfl

/-- Using up a step's inputs changes no field but the model's own `stimulus` and `draws`. -/
theorem advanceInputs_cases (s : State) :
    (∃ x xs, s.stimulus = x :: xs ∧ s.advanceInputs = { s with stimulus := xs }) ∨
    (s.stimulus = [] ∧ s.advanceInputs = { s with draws := s.draws + 1 }) := by
  unfold State.advanceInputs
  split
  · rename_i x xs h
    exact .inl ⟨x, xs, h, rfl⟩
  · rename_i h
    exact .inr ⟨h, rfl⟩

theorem phaseMux_zero (pat : Pattern) : phaseMux pat 0 = ⟨0, 0, 0⟩ := by
  simp [phaseMux]

theorem phaseMux_allOff (d : Nat) : phaseMux allOff d = ⟨0, 0, 0⟩ := rfl

theorem statusOf_ready : statusOf .ready = .ok := rfl

theorem statusOf_uninit : statusOf .uninit = .notInit := rfl

theorem statusOf_failed : statusOf .failed = .hwFail := rfl

end Sys2Proof.Machine
end

