-- ==== Sys2Proof/Laws/PerInstr.lean ====
section
/-! SUPPORT. The per-instruction family EncodedFields: the fields of an instruction's encoded word are its opcode and
its operand (spec/30_encoding.md R70, R72). -/

namespace Sys2Proof.Laws.EncodedFields

/-- The encoded word of `i` has the opcode and the operand field of `i`. -/
def Statement (i : Instr) : Prop := opField (encode i) = opcodeOf i ∧ argField (encode i) = argOf i

theorem nop : Statement .nop := ⟨opField_joinFields _ _, argField_joinFields _ _⟩

theorem init : Statement .init := ⟨opField_joinFields _ _, argField_joinFields _ _⟩

theorem setSpeed (rpm : Int) : Statement (.setSpeed rpm) := ⟨opField_joinFields _ _, argField_joinFields _ _⟩

theorem start : Statement .start := ⟨opField_joinFields _ _, argField_joinFields _ _⟩

theorem stop : Statement .stop := ⟨opField_joinFields _ _, argField_joinFields _ _⟩

theorem getSpeed : Statement .getSpeed := ⟨opField_joinFields _ _, argField_joinFields _ _⟩

theorem update : Statement .update := ⟨opField_joinFields _ _, argField_joinFields _ _⟩

theorem reserved : Statement .reserved := ⟨opField_joinFields _ _, argField_joinFields _ _⟩

end Sys2Proof.Laws.EncodedFields
end

