-- ==== Sys2Proof/Laws/Scaler.lean ====
section
/-! SUPPORT. Arithmetic of the scaler and the clamp, and case analysis over the eight Hall codes. -/

namespace Sys2Proof.Machine

theorem scaleDuty_zero (p : Params) : scaleDuty p 0 = 0 := by
  simp [scaleDuty]

theorem scaleDuty_le_of_le {p : Params} {u v : Nat} (h : u ≤ v) : scaleDuty p u ≤ scaleDuty p v :=
  Nat.div_le_div_right (Nat.mul_le_mul_right _ h)

theorem clampSpeed_cast (p : Params) (rpm : Int) :
    (clampSpeed p rpm : Int) = min (max rpm 0) (p.maxRpm : Int) := by
  unfold clampSpeed
  omega

theorem clampSpeed_le (p : Params) (rpm : Int) : clampSpeed p rpm ≤ p.maxRpm := by
  have := clampSpeed_cast p rpm
  omega

theorem clampSpeed_unique {p : Params} {rpm : Int} {v : Nat}
    (h : (v : Int) = min (max rpm 0) (p.maxRpm : Int)) : clampSpeed p rpm = v := by
  have := clampSpeed_cast p rpm
  omega

/-- Every Hall code is the code of three levels. -/
theorem hallCode_surjective (code : HallCode) : ∃ a b c, hallCode a b c = code := by
  revert code
  decide

theorem lookup_tableOf (e1 e2 e4 e6 : Pattern) (a b c : Bool) :
    lookup (tableOf e1 e2 e4 e6) (hallCode a b c) =
      match a, b, c with
      | false, false, false => allOff
      | false, false, true => e1
      | false, true, false => e2
      | false, true, true => ⟨true, true, false⟩
      | true, false, false => e4
      | true, false, true => ⟨true, false, true⟩
      | true, true, false => e6
      | true, true, true => allOff := by
  cases a <;> cases b <;> cases c <;> rfl

end Sys2Proof.Machine
end

