-- ==== Sys2Proof/Laws/Step.lean ====
section
/-! SUPPORT. What a step can do, said once. -/

namespace Sys2Proof.Machine

/-- A command leaves the presented inputs to the step that executes it. -/
theorem exec_keeps_inputs {i : Instr} {s t : State} (h : exec i s = .next t) :
    t.stimulus = s.stimulus ∧ t.draws = s.draws := by
  cases i <;> simp only [exec, execNop, execInit, execSetSpeed, execStart, execStop, execGetSpeed, execUpdate,
    execReserved, Host.Outcome.next.injEq] at h <;> subst h
  case nop => exact ⟨rfl, rfl⟩
  case init => split <;> [exact ⟨rfl, rfl⟩; (split <;> exact ⟨rfl, rfl⟩)]
  case setSpeed rpm =>
    split
    · obtain ⟨-, h⟩ | ⟨-, h⟩ := commutateIfRunning_cases (writeSpeed (speedOperand rpm s) s) <;>
        rw [h] <;> exact ⟨rfl, rfl⟩
    · exact ⟨rfl, rfl⟩
  case start => split <;> exact ⟨rfl, rfl⟩
  case stop => exact ⟨rfl, rfl⟩
  case getSpeed => exact ⟨rfl, rfl⟩
  case update =>
    obtain ⟨-, h⟩ | ⟨-, h⟩ := commutateIfRunning_cases s <;> rw [h] <;> exact ⟨rfl, rfl⟩
  case reserved => exact ⟨rfl, rfl⟩

/-- The two kinds of step that go on: a reset step, and a step that executes the presented command. -/
theorem step_cases {s t : State} (h : step s = .next t) :
    (s.presented.rst = true ∧ t = (resetBlock s).advanceInputs) ∨
    (s.presented.rst = false ∧ ∃ u, exec s.presentedCommand s = .next u ∧ t = u.advanceInputs) := by
  unfold step at h
  split at h
  · rename_i hr
    exact .inl ⟨hr, (Host.Outcome.next.inj h).symm⟩
  · rename_i hr
    refine .inr ⟨by simpa using hr, ?_⟩
    split at h
    · rename_i u hu
      exact ⟨u, hu, (Host.Outcome.next.inj h).symm⟩
    · cases h
    · cases h

theorem step_of_reset {s : State} (hr : s.presented.rst = true) : step s = .next (resetBlock s).advanceInputs := by
  unfold step
  rw [if_pos hr]

theorem step_of_exec {s u : State} (hr : s.presented.rst = false) (h : exec s.presentedCommand s = .next u) :
    step s = .next u.advanceInputs := by
  simp [step, hr, h]

/-- The word given to `withFetchWord` is the command of the next step. -/
theorem withFetchWord_presented (s : State) (nbits w : Nat) :
    (s.withFetchWord nbits w).presented =
      { s.presented with cmd := BitVec.ofNat 35 (w % 2 ^ nbits), rst := false } := rfl

/-- `withFetchWord` uses up exactly the inputs that the next step of `s` was going to see. -/
theorem withFetchWord_advanceInputs (s : State) (nbits w : Nat) :
    (s.withFetchWord nbits w).advanceInputs = s.advanceInputs := rfl

/-- Where nothing is listed, `withFetchWord` takes the free inputs of one draw and advances to the next draw. -/
theorem withFetchWord_draws {s : State} (h : s.stimulus = []) (nbits w : Nat) :
    (s.withFetchWord nbits w).draws = s.draws + 1 ∧
    (s.withFetchWord nbits w).presented =
      { drawnInput s.draws with cmd := BitVec.ofNat 35 (w % 2 ^ nbits), rst := false } := by
  obtain ⟨x, xs, hx, -⟩ | ⟨-, hadv⟩ := advanceInputs_cases s
  · cases h.symm.trans hx
  · refine ⟨by simp only [State.withFetchWord, hadv], ?_⟩
    rw [withFetchWord_presented]
    simp only [State.presented, h]

/-- The command of the next step is the given word, decoded with the block's own RPM_IN_SIGNED. -/
theorem withFetchWord_presentedCommand (s : State) (nbits w : Nat) :
    (s.withFetchWord nbits w).presentedCommand =
      decode s.params.rpmInSigned (BitVec.ofNat 35 (w % 2 ^ nbits)) := by
  unfold State.presentedCommand
  rw [withFetchWord_presented]
  simp only [State.withFetchWord, State.advanceInputs_params]

/-- After `withFetchWord`, the next step runs the decoded word. -/
theorem step_withFetchWord {s u : State} {nbits w : Nat}
    (h : exec (decode s.params.rpmInSigned (BitVec.ofNat 35 (w % 2 ^ nbits))) (s.withFetchWord nbits w) = .next u) :
    step (s.withFetchWord nbits w) = .next u.advanceInputs :=
  step_of_exec rfl (by rw [withFetchWord_presentedCommand]; exact h)

end Sys2Proof.Machine
end

