-- ==== Sys2Proof/Laws/Safety.lean ====
section
/-! SUPPORT. The invariant's parts, unfolded once, and what the invariant does not depend on. -/

namespace Sys2Proof.Machine

@[simp] theorem deenergised_iff (s : State) : s.Deenergised ↔ s.phaseDuty = ⟨0, 0, 0⟩ := Iff.rfl

@[simp] theorem allZero_iff (s : State) :
    s.AllZero ↔
      s.commandedSpeed = 0 ∧ s.isRunning = false ∧ s.phaseDuty = ⟨0, 0, 0⟩ ∧ s.hallFault = false := Iff.rfl

theorem invalidCode_eq_decide (code : HallCode) : invalidCode code = decide (code = 0#3 ∨ code = 7#3) := by
  revert code
  decide

/-- The response registers and the inputs are no part of the invariant. -/
theorem inv_of_sameButResponse {s t : State} (h : s.Inv) (hs : s.SameButResponse t) : t.Inv := by
  obtain ⟨hp, hc, hv, hr, hd, hph, hi, hf⟩ := hs
  obtain ⟨h1, h2, h3, h4, h5, h6, h7⟩ := h
  constructor <;> simp only [State.AllZero, State.ShowsSomeCode, State.Deenergised] at * <;>
    simp only [← hp, ← hc, ← hv, ← hr, ← hd, ← hph, ← hi, ← hf] <;> assumption

theorem respond_inv {s : State} (h : s.Inv) (r : RespStatus) (d : BitVec 32) : (respond r d s).Inv :=
  inv_of_sameButResponse h ⟨rfl, rfl, rfl, rfl, rfl, rfl, rfl, rfl⟩

theorem advanceInputs_inv {s : State} (h : s.Inv) : s.advanceInputs.Inv :=
  inv_of_sameButResponse h (by simp [State.SameButResponse])

theorem withInputs_inv {s : State} (h : s.Inv) (xs : List StepInput) (n : Nat) : (s.withInputs xs n).Inv :=
  inv_of_sameButResponse h ⟨rfl, rfl, rfl, rfl, rfl, rfl, rfl, rfl⟩

/-- A commutation update makes the phases and the fault flag show the sampled code. -/
theorem commutationUpdate_showsSomeCode (s : State) : (commutationUpdate s).ShowsSomeCode :=
  ⟨hallRead s, rfl, rfl⟩

/-- Running the inputs `x :: xs` without a reset in the first step is executing `x`'s command and then running `xs`. -/
theorem runInputs_cons {s u : State} {x : StepInput} {xs : List StepInput} (hr : x.rst = false)
    (h : exec (decode s.params.rpmInSigned x.cmd) { s with stimulus := x :: xs } = .next u) :
    s.runInputs (x :: xs) = u.runInputs xs := by
  have hstep : Sys2Proof.core.step { s with stimulus := x :: xs } = .next u.advanceInputs := step_of_exec hr h
  have hadv : u.advanceInputs = { u with stimulus := xs } := by
    unfold State.advanceInputs
    rw [(exec_keeps_inputs h).1]
  unfold State.runInputs
  simp only [List.length_cons, Host.Core.run]
  rw [hstep, hadv]

/-- Running the inputs `x :: xs` with a reset in the first step is resetting the block and then running `xs`. -/
theorem runInputs_reset {s : State} {x : StepInput} {xs : List StepInput} (hr : x.rst = true) :
    s.runInputs (x :: xs) = (resetBlock s).runInputs xs := by
  have hstep : Sys2Proof.core.step { s with stimulus := x :: xs } =
      .next (resetBlock { s with stimulus := x :: xs }).advanceInputs := step_of_reset hr
  unfold State.runInputs
  simp only [List.length_cons, Host.Core.run]
  rw [hstep]
  rfl

end Sys2Proof.Machine
end

