-- ==== Sys2Proof/Tests/Slice0.lean ====
section
/-! SUPPORT. The model's own tests. Expected values come from spec/95_test_vectors.md (named V-...), from
spec/30_encoding.md R77 or by hand from the rule named. Then one witness for the hypotheses of each statement. -/

namespace Sys2Proof.Tests

open Sys2Proof Sys2Proof.Machine

/-! ### Decoding, by words written out bit by bit from spec/30_encoding.md R70 and R72 -/

theorem test_decode_nop : decode true 0b000_00000000000000000000000000000000#35 = .nop := by decide

theorem test_decode_init : decode true 0b001_00000000000000000000000000000000#35 = .init := by decide

theorem test_decode_setSpeed : decode true 0b010_00000000000000000000001111101000#35 = .setSpeed 1000 := by decide

/-- V-CL-9: bit 31 of the operand is its sign bit when RPM_IN_SIGNED, and 2^31 otherwise. -/
theorem test_decode_setSpeed_signed :
    decode true 0b010_10000000000000000000000000000000#35 = .setSpeed (-2147483648) ∧
    decode false 0b010_10000000000000000000000000000000#35 = .setSpeed 2147483648 := by decide

theorem test_decode_start : decode true 0b011_11111111111111111111111111111111#35 = .start := by decide

theorem test_decode_stop : decode true 0b100_00000000000000000000000000000001#35 = .stop := by decide

theorem test_decode_getSpeed : decode true 0b101_00000000000000000000000000000000#35 = .getSpeed := by decide

theorem test_decode_update : decode true 0b110_10000000000000000000000000000000#35 = .update := by decide

/-- The word of V-CMD-31. -/
theorem test_decode_reserved : decode true 0x7DEADBEEF#35 = .reserved := by decide

/-- A number with a bit above bit 34 is no command word. -/
theorem test_decodeNumber_wide : decodeNumber true (2 ^ 35) = .error .widerThanCommandWord := by decide

theorem test_decodeTableWord : decodeTableWord 40 0x2FFFFFFFF = some (.setSpeed (-1)) ∧
    decodeTableWord 40 0x600000000 = some .update ∧ decodeTableWord 40 (2 ^ 39) = none := by decide

/-- R77: the encoder's words. -/
theorem test_encode : encode (.setSpeed 2500) = 0x2000009C4#35 ∧ encode (.setSpeed (-1)) = 0x2FFFFFFFF#35 ∧
    encode .getSpeed = 0x500000000#35 := by decide

/-! ### WellFormed refuses what has no encoding (spec/30_encoding.md R76) -/

theorem test_wellFormed_refuses_below_signed : WellFormed true (.setSpeed (-2147483649)) = false := by decide

theorem test_wellFormed_refuses_above_signed : WellFormed true (.setSpeed 2147483648) = false := by decide

theorem test_wellFormed_refuses_below_unsigned : WellFormed false (.setSpeed (-1)) = false := by decide

theorem test_wellFormed_refuses_above_unsigned : WellFormed false (.setSpeed 4294967296) = false := by decide

/-! ### The assembler (spec/30_encoding.md R76, R77) -/

theorem test_assemble_setSpeed_negative :
    assembleLine true ['S', 'E', 'T', '_', 'S', 'P', 'E', 'E', 'D', ' ', '-', '1'] = some 0x2FFFFFFFF#35 := by decide

theorem test_assemble_setSpeed_hex_and_hall :
    let line := ['S', 'E', 'T', '_', 'S', 'P', 'E', 'E', 'D', ' ', '0', 'x', '3', 'E', '8', ' ', ';', ' ',
      'h', 'a', 'l', 'l', '=', '1', '0', '1']
    assembleLine true line = some 0x2000003E8#35 ∧ hallComment line = some (true, false, true) := by decide

/-- An operand out of range is an assembly error. -/
theorem test_assemble_out_of_range :
    assembleLine false ['S', 'E', 'T', '_', 'S', 'P', 'E', 'E', 'D', ' ', '-', '1'] = none := by decide

theorem test_assemble_update : assembleLine true ['U', 'P', 'D', 'A', 'T', 'E'] = some 0x600000000#35 := by decide

/-! ### The sub-blocks -/

/-- V-LUT-0 to V-LUT-7. -/
theorem test_default_table :
    lookup defaultTable (hallCode false false false) = ⟨false, false, false⟩ ∧
    lookup defaultTable (hallCode false false true) = ⟨true, false, false⟩ ∧
    lookup defaultTable (hallCode false true false) = ⟨false, true, false⟩ ∧
    lookup defaultTable (hallCode false true true) = ⟨true, true, false⟩ ∧
    lookup defaultTable (hallCode true false false) = ⟨false, false, true⟩ ∧
    lookup defaultTable (hallCode true false true) = ⟨true, false, true⟩ ∧
    lookup defaultTable (hallCode true true false) = ⟨false, true, true⟩ ∧
    lookup defaultTable (hallCode true true true) = ⟨false, false, false⟩ := by decide

/-- V-LUT-9 and V-LUT-10: the default table is admissible, and so is the one with `111` at code 1; a table whose
codes 1 and 2 are swapped is not. -/
theorem test_admissible_tables :
    AdmissibleTable defaultTable ∧
    AdmissibleTable (tableOf ⟨true, true, true⟩ ⟨false, true, false⟩ ⟨false, false, true⟩ ⟨false, true, true⟩) ∧
    ¬ AdmissibleTable (tableOf ⟨false, true, false⟩ ⟨true, false, false⟩ ⟨false, false, true⟩ ⟨false, true, true⟩) := by
  decide

/-- V-CL-1, V-CL-5, V-CL-8, V-CL-9. -/
theorem test_clamp : clampSpeed Config.defaultParams 0 = 0 ∧ clampSpeed Config.defaultParams 5001 = 5000 ∧
    clampSpeed Config.defaultParams (-1) = 0 ∧ clampSpeed Config.defaultParams (-2147483648) = 0 := by decide

/-- V-SC-3, V-SC-4, V-SC-9, V-SC-13, V-SC-14. -/
theorem test_scaler : [4, 5, 1234, 4999, 5000].map (scaleDuty Config.defaultParams) = [0, 1, 252, 1023, 1024] := by
  decide

/-- V-SC-16, V-SC-17, V-SC-18. -/
theorem test_scaler_other_parameters :
    [0, 1, 2, 3].map (scaleDuty ⟨3, 2, true⟩) = [0, 0, 1, 2] ∧
    [1, 50, 99, 100].map (scaleDuty ⟨100, 1024, true⟩) = [10, 512, 1013, 1024] ∧
    scaleDuty ⟨2147483647, 2147483647, true⟩ 2147483647 = 2147483647 := by decide

/-- 00_scope.md R5: `bitlen(5000) = 13` and `bitlen(1024) = 11`. -/
theorem test_widths : speedW Config.defaultParams = 13 ∧ dutyW Config.defaultParams = 11 := by decide

/-- V-MX-2, V-MX-3, V-MX-5. -/
theorem test_phaseMux : phaseMux ⟨true, false, true⟩ 204 = ⟨204, 0, 204⟩ ∧
    phaseMux ⟨false, true, true⟩ 1024 = ⟨0, 1024, 1024⟩ ∧ phaseMux ⟨false, false, false⟩ 1024 = ⟨0, 0, 0⟩ := by decide

/-! ### One step of each command -/

/-- READY-stop of spec/95_test_vectors.md §2.5. -/
def readyStop : State := { State.reset with initState := .ready, commandedSpeed := 1000, dutyCycle := 204 }

/-- READY-run with phases from code 5. -/
def readyRun : State := { readyStop with isRunning := true, phaseDuty := ⟨204, 0, 204⟩ }

/-- FAILED with every other element zero. -/
def failedState : State := { State.reset with initState := .failed }

/-- The inputs of one step that is no reset step: the command and the Hall levels; `hw_init_ok` is 1. -/
def pins (cmd : CmdWord) (hallA hallB hallC : Bool) : StepInput := ⟨cmd, hallA, hallB, hallC, true, false⟩

/-- A state's elements in the order of spec/95_test_vectors.md: init/speed/duty/run/phases/hallFault/resp. -/
structure View where
  initState : InitState
  speed : Nat
  duty : Nat
  run : Bool
  phases : PhaseDuty
  hallFault : Bool
  status : RespStatus
  data : BitVec 32
  deriving DecidableEq, Repr

/-- The elements of the state that a step ends in. -/
def view (o : Host.Outcome State Fault Refusal) : Option View :=
  match o with
  | .next t => some ⟨t.initState, t.commandedSpeed, t.dutyCycle, t.isRunning, t.phaseDuty, t.hallFault, t.respStatus,
      t.respData⟩
  | .fault _ => none
  | .refused _ => none

/-- The step that presents `x` in the state `s`. -/
def after (s : State) (x : StepInput) : Option View := view (step { s with stimulus := [x] })

/-- R160. -/
theorem test_nop : after readyRun (pins 0x0FFFFFFFF#35 true true true) =
    some ⟨.ready, 1000, 204, true, ⟨204, 0, 204⟩, false, .ok, 0⟩ := by decide

/-- V-CMD-6. -/
theorem test_init_fails_while_running : after readyRun ⟨0x100000000#35, true, false, true, false, false⟩ =
    some ⟨.failed, 0, 0, false, ⟨0, 0, 0⟩, false, .hwFail, 0⟩ := by decide

/-- V-CMD-4. -/
theorem test_init_in_failed : after failedState (pins 0x100000000#35 false false false) =
    some ⟨.failed, 0, 0, false, ⟨0, 0, 0⟩, false, .hwFail, 0⟩ := by decide

/-- V-CMD-9. -/
theorem test_setSpeed_same_value_resamples :
    after { readyRun with phaseDuty := ⟨204, 204, 0⟩ } (pins 0x2000003E8#35 false true false) =
      some ⟨.ready, 1000, 204, true, ⟨0, 204, 0⟩, false, .ok, 0⟩ := by decide

/-- P4 step 9: the new duty and an invalid code in one step. -/
theorem test_setSpeed_invalid_code :
    after readyRun (pins 0x200001387#35 false false false) =
      some ⟨.ready, 4999, 1023, true, ⟨0, 0, 0⟩, true, .ok, 0⟩ := by decide

/-- V-CMD-16. -/
theorem test_start_while_running : after readyRun (pins 0x300000000#35 true true false) =
    some ⟨.ready, 1000, 204, true, ⟨0, 204, 204⟩, false, .ok, 0⟩ := by decide

/-- V-CMD-17. -/
theorem test_start_uninit : after State.reset (pins 0x300000000#35 false true true) =
    some ⟨.uninit, 0, 0, false, ⟨0, 0, 0⟩, false, .notInit, 0⟩ := by decide

/-- V-CMD-19 with `hallFault` set, which STOP keeps. -/
theorem test_stop : after { readyRun with hallFault := true } (pins 0x400000000#35 true false true) =
    some ⟨.ready, 1000, 204, false, ⟨0, 0, 0⟩, true, .ok, 0⟩ := by decide

/-- V-CMD-22. -/
theorem test_stop_failed : after failedState (pins 0x400000000#35 true false true) =
    some ⟨.failed, 0, 0, false, ⟨0, 0, 0⟩, false, .hwFail, 0⟩ := by decide

/-- V-CMD-23 with the READY-run state. -/
theorem test_getSpeed : after readyRun (pins 0x500000000#35 false false false) =
    some ⟨.ready, 1000, 204, true, ⟨204, 0, 204⟩, false, .ok, 1000⟩ := by decide

/-- V-CMD-24. -/
theorem test_getSpeed_uninit : after State.reset (pins 0x500000000#35 false false false) =
    some ⟨.uninit, 0, 0, false, ⟨0, 0, 0⟩, false, .notInit, 0⟩ := by decide

/-- V-CMD-27. -/
theorem test_update_invalid_code : after readyRun (pins 0x600000000#35 true true true) =
    some ⟨.ready, 1000, 204, true, ⟨0, 0, 0⟩, true, .ok, 0⟩ := by decide

/-- V-CMD-29. -/
theorem test_update_stopped : after readyStop (pins 0x600000000#35 false true true) =
    some ⟨.ready, 1000, 204, false, ⟨0, 0, 0⟩, false, .ok, 0⟩ := by decide

/-- V-CMD-31. -/
theorem test_reserved : after readyRun (pins 0x7DEADBEEF#35 true true true) =
    some ⟨.ready, 1000, 204, true, ⟨204, 0, 204⟩, false, .illegal, 0⟩ := by decide

/-- V-CMD-33: reset has priority over the command. -/
theorem test_reset_step : after readyRun ⟨0x2000009C4#35, true, false, true, true, true⟩ =
    some ⟨.uninit, 0, 0, false, ⟨0, 0, 0⟩, false, .ok, 0⟩ := by decide

/-- R32: the output ports of READY-run. -/
theorem test_outputs : (outputs readyRun).dutyA.toNat = 204 ∧ (outputs readyRun).dutyB.toNat = 0 ∧
    (outputs readyRun).stReady = true ∧ (outputs readyRun).stFailed = false ∧ (outputs readyRun).stRunning = true := by
  decide

/-- The word given to `withFetchWord` runs as the first command after reset, whatever the free inputs are. -/
theorem test_withFetchWord : view (step (State.reset.withFetchWord 40 0x500000000)) =
    some ⟨.uninit, 0, 0, false, ⟨0, 0, 0⟩, false, .notInit, 0⟩ := by decide

/-- Two commands placed one after the other from an empty list take two draws (log entry 11). -/
theorem test_withFetchWord_advances_draws : (State.reset.withFetchWord 40 0x600000000).draws = 1 ∧
    (State.reset.withFetchWord 40 0x600000000).advanceInputs.draws = 1 := by decide

/-! ### Witnesses: states and operands that meet the hypotheses of each statement that has some -/

/-- The word of SET_SPEED 1000, START, STOP, GET_SPEED presented with code 5. -/
def showing (s : State) (cmd : CmdWord) : State := { s with stimulus := [pins cmd true false true] }

/-- READY-run with the given Hall levels presented. -/
def runAt (hallA hallB hallC : Bool) : State := { readyRun with stimulus := [pins 0x600000000#35 hallA hallB hallC] }

theorem readyStop_inv : readyStop.Inv :=
  { params := by decide, table := by decide, speed := by decide, duty := by decide
    notReady := fun h => absurd rfl h, stopped := fun _ => rfl, running := fun h => absurd h (by decide) }

theorem failedState_inv : failedState.Inv :=
  { params := by decide, table := by decide, speed := by decide, duty := by decide
    notReady := fun _ => ⟨rfl, rfl, rfl, rfl⟩, stopped := fun _ => rfl, running := fun h => absurd h (by decide) }

theorem readyRun_inv : readyRun.Inv :=
  { params := by decide, table := by decide, speed := by decide, duty := by decide
    notReady := fun h => absurd rfl h, stopped := fun h => absurd h (by decide)
    running := fun _ => ⟨5#3, by decide, by decide⟩ }

theorem witness_InitReinitialisesOutsideFailed :
    (readyRun.initState ≠ .failed ∧ (showing readyRun 0).presented.hwInitOk = true) ∧
    (State.reset.initState ≠ .failed ∧
      ({ State.reset with stimulus := [⟨0, true, true, true, false, false⟩] } : State).presented.hwInitOk = false) ∧
    failedState.initState = .failed := by decide

/-- Both bounds of the clamp and a value inside. -/
theorem witness_SetSpeedClampsScalesAndCommutates :
    ((0 : Nat) : Int) = min (max (-1) 0) (readyStop.params.maxRpm : Int) ∧
    ((5000 : Nat) : Int) = min (max 5001 0) (readyRun.params.maxRpm : Int) ∧
    ((1000 : Nat) : Int) = min (max 1000 0) (failedState.params.maxRpm : Int) ∧
    (readyStop.initState = .ready ∧ readyStop.isRunning = false) ∧
    (readyRun.initState = .ready ∧ readyRun.isRunning = true) ∧
    State.reset.initState = .uninit ∧ failedState.initState = .failed := by decide

theorem witness_StartRunsAndCommutatesInReady :
    readyStop.initState = .ready ∧ State.reset.initState = .uninit ∧ failedState.initState = .failed := by decide

/-- The greatest legal speed. -/
theorem witness_GetSpeedRespondsWithCommandedSpeed :
    readyStop.params.Admissible ∧
    ({ readyStop with commandedSpeed := 5000 } : State).commandedSpeed ≤ readyStop.params.maxRpm ∧
    failedState.Inv ∧ failedState.initState ≠ .ready := ⟨by decide, by decide, failedState_inv, by decide⟩

theorem witness_UpdateCommutatesOnlyWhenRunning : readyRun.isRunning = true ∧ readyStop.isRunning = false := by decide

theorem witness_ResponseOfEveryCommand :
    (readyRun.initState ≠ .failed ∧ (showing readyRun 0).presented.hwInitOk = true) ∧
    (failedState.initState = .failed ∨ failedState.presented.hwInitOk = false) ∧
    (Instr.stop ≠ .nop ∧ Instr.stop ≠ .reserved ∧ Instr.stop ≠ .init) ∧
    readyRun.initState = .ready ∧ State.reset.initState = .uninit ∧ failedState.initState = .failed ∧
    readyRun.params.Admissible ∧
    ({ readyRun with commandedSpeed := 5000 } : State).commandedSpeed ≤ readyRun.params.maxRpm := by
  refine ⟨by decide, .inl rfl, by decide, by decide⟩

theorem witness_FrameOfEveryCommand :
    (∃ t, exec .getSpeed readyRun = .next t) ∧ (∃ t, exec .start failedState = .next t) ∧
    (Instr.getSpeed ≠ .init ∧ (∀ rpm, Instr.getSpeed ≠ .setSpeed rpm) ∧ Instr.getSpeed ≠ .start ∧
      Instr.getSpeed ≠ .stop ∧ ¬ Commutates .getSpeed readyRun) ∧
    (failedState.initState = .failed ∧ Instr.start ≠ .stop ∧ Instr.start ≠ .update) := by
  refine ⟨⟨_, rfl⟩, ⟨_, rfl⟩, ⟨by decide, by simp, by decide, by decide, by simp [Commutates]⟩, by decide⟩

theorem witness_DefaultTableContents : (0#3 : HallCode) ≠ 7#3 ∧ (6#3 : HallCode) ≠ 7#3 := by decide

theorem witness_UpdateDrivesTheFixedCodes :
    AdmissibleTable readyRun.comm ∧ readyRun.initState = .ready ∧ readyRun.isRunning = true ∧
    hallRead (runAt false true true) = 3#3 ∧ hallRead (runAt true false true) = 5#3 ∧
    hallRead (runAt false false false) = 0#3 ∧ hallRead (runAt true true true) = 7#3 := by decide

theorem witness_ClampSpeedLimitsTheOperand :
    (-1 : Int) < 0 ∧ (Config.defaultParams.maxRpm : Int) < 5001 ∧
    ((0 : Int) ≤ 0 ∧ (0 : Int) ≤ (Config.defaultParams.maxRpm : Int)) ∧
    ((0 : Int) ≤ 5000 ∧ (5000 : Int) ≤ (Config.defaultParams.maxRpm : Int)) := by decide

theorem witness_ClampingIsNeverAnError : readyRun.initState = .ready := by decide

theorem witness_ScaleDutyIsTheTruncatedQuotient :
    Config.defaultParams.Admissible ∧ 0 ≤ Config.defaultParams.maxRpm ∧ 5000 ≤ Config.defaultParams.maxRpm ∧
    Config.defaultParams.maxRpm = 5000 ∧ Config.defaultParams.pwmRange = 1024 := by decide

theorem witness_ScaleDutyEndpointsAndMonotonicity :
    Config.defaultParams.Admissible ∧ (⟨2147483647, 1, true⟩ : Params).Admissible ∧
    scaleDuty Config.defaultParams 5000 = Config.defaultParams.pwmRange ∧ 5000 ≤ Config.defaultParams.maxRpm ∧
    4 ≤ 5 ∧ scaleDuty Config.defaultParams 4 = 0 := by decide

theorem witness_ScaleDutyStepSizes :
    (Config.defaultParams.Admissible ∧ Config.defaultParams.pwmRange ≤ Config.defaultParams.maxRpm ∧
      4999 + 1 ≤ Config.defaultParams.maxRpm) ∧
    ((⟨100, 1024, true⟩ : Params).Admissible ∧ (100 : Nat) < 1024 ∧
      scaleDuty ⟨100, 1024, true⟩ 100 = scaleDuty ⟨100, 1024, true⟩ 100) := by decide

theorem witness_PhaseMuxDrivesExactlyTheEnabledPhases :
    (⟨true, true, true⟩ : Pattern).enA = true ∧ (⟨true, true, true⟩ : Pattern).enB = true ∧
    (⟨true, true, true⟩ : Pattern).enC = true ∧ allOff.enA = false ∧ allOff.enB = false ∧ allOff.enC = false := by decide

theorem witness_CommutationUpdateWritesPhasesAndFault :
    Commutates .start readyStop ∧ Commutates (.setSpeed 5000) readyRun ∧ Commutates .update readyRun :=
  ⟨.inl ⟨rfl, rfl⟩, .inr (.inl ⟨⟨_, rfl⟩, rfl, rfl⟩), .inr (.inr ⟨rfl, rfl⟩)⟩

theorem witness_InvalidHallCodeDeenergisesWithoutError :
    AdmissibleTable readyRun.comm ∧ readyRun.initState = .ready ∧ readyRun.isRunning = true ∧
    hallRead (runAt false false false) = 0#3 ∧ hallRead (runAt true true true) = 7#3 ∧
    (hallRead (runAt false false true) ≠ 0#3 ∧ hallRead (runAt false false true) ≠ 7#3) := by decide

theorem witness_UpdateIsIdempotent :
    ∃ t, exec .update (runAt false true true) = .next t ∧
      hallRead (t.withInputs [pins 0x600000000#35 false true true] 1) = hallRead (runAt false true true) :=
  ⟨_, rfl, rfl⟩

theorem witness_StartWhileRunningEqualsUpdate : readyRun.initState = .ready ∧ readyRun.isRunning = true := by decide

theorem witness_OnlyCommutationUpdatesReadTheHallInputs :
    ¬ Commutates .update (showing readyStop 0) ∧ ¬ Commutates (.setSpeed 5) (showing readyStop 0) ∧
    ¬ Commutates .start (showing failedState 0) ∧
    ((showing readyStop 0).withInputs [pins 0 false false false] 0).presented.hwInitOk =
      (showing readyStop 0).presented.hwInitOk := by
  refine ⟨?_, ?_, ?_, rfl⟩ <;> simp [Commutates, showing, readyStop, failedState, State.reset, State.resetWith]

theorem witness_OnlyInitReadsHwInitOk :
    Instr.update ≠ .init ∧
    hallRead ((runAt true false true).withInputs [⟨0, true, false, true, false, false⟩] 0) =
      hallRead (runAt true false true) := by decide

theorem witness_OpcodeFieldSelectsTheCommand :
    (0x000000000#35).extractLsb 34 32 = 0b000#3 ∧ (0x1FFFFFFFF#35).extractLsb 34 32 = 0b001#3 ∧
    (0x200000001#35).extractLsb 34 32 = 0b010#3 ∧ (0x300000000#35).extractLsb 34 32 = 0b011#3 ∧
    (0x400000000#35).extractLsb 34 32 = 0b100#3 ∧ (0x500000000#35).extractLsb 34 32 = 0b101#3 ∧
    (0x600000000#35).extractLsb 34 32 = 0b110#3 ∧ (0x7FFFFFFFF#35).extractLsb 34 32 = 0b111#3 := by decide

theorem witness_ArgIsReadBySetSpeedAlone :
    (0x280000000#35).extractLsb 34 32 = 0b010#3 ∧ (0x27FFFFFFF#35).extractLsb 34 32 = 0b010#3 ∧
    (0x2FFFFFFFF#35).extractLsb 34 32 = 0b010#3 ∧
    (0x300000000#35).extractLsb 34 32 = (0x3FFFFFFFF#35).extractLsb 34 32 ∧
    (0x300000000#35).extractLsb 34 32 ≠ 0b010#3 := by decide

/-- Both ends of both operand ranges. -/
theorem witness_DecodeOfEncodeIsTheInstruction :
    WellFormed true (.setSpeed (-2147483648)) = true ∧ WellFormed true (.setSpeed 2147483647) = true ∧
    WellFormed false (.setSpeed 0) = true ∧ WellFormed false (.setSpeed 4294967295) = true ∧
    WellFormed true .reserved = true := by decide

theorem witness_EncodeOfDecodeIsTheCanonicalWord :
    (0x2FFFFFFFF#35).extractLsb 34 32 = 0b010#3 ∧ (0x7DEADBEEF#35).extractLsb 34 32 ≠ 0b010#3 := by decide

theorem witness_AssemblerAcceptsExactlyTheOperandRange :
    assemble true .stop = some 0x400000000#35 ∧ assemble true (.setSpeed (-2147483648)) = some 0x280000000#35 ∧
    assemble false (.setSpeed 4294967295) = some 0x2FFFFFFFF#35 := by decide

theorem witness_StepRunsTheDecodedCommand :
    ((showing readyRun 0x400000000#35).presented.rst = false ∧
      decode readyRun.params.rpmInSigned (showing readyRun 0x400000000#35).presented.cmd = .stop ∧
      ∃ t, exec .stop (showing readyRun 0x400000000#35) = .next t) ∧
    (showing readyRun 0).stimulus = pins 0 true false true :: [] ∧ State.reset.stimulus = [] :=
  ⟨⟨rfl, by decide, _, rfl⟩, rfl, rfl⟩

/-- The reset step of V-CMD-33. -/
def resetting : State := { readyRun with stimulus := [⟨0x400000000#35, true, true, true, true, true⟩] }

theorem witness_ResetStepWritesTheResetValues :
    resetting.presented.rst = true ∧ resetting.params.Admissible ∧ AdmissibleTable resetting.comm := by decide

theorem witness_InvariantHoldsAtReset :
    (⟨1, 2147483647, false⟩ : Params).Admissible ∧ (⟨2147483647, 1, true⟩ : Params).Admissible ∧
    AdmissibleTable
      (tableOf ⟨true, false, false⟩ ⟨false, true, false⟩ ⟨true, true, true⟩ ⟨false, true, true⟩) := by decide

theorem witness_EveryStepKeepsTheInvariant :
    (runAt false true true).Inv ∧ ∃ t, step (runAt false true true) = .next t :=
  ⟨withInputs_inv readyRun_inv _ _, _, rfl⟩

theorem witness_ReachableStatesAreExactlyTheInvariant :
    readyRun.params.Admissible ∧ AdmissibleTable readyRun.comm := by decide

theorem witness_DutyIsAlwaysTheFunctionOfSpeed :
    readyRun.dutyCycle = readyRun.commandedSpeed * readyRun.params.pwmRange / readyRun.params.maxRpm ∧
    ∃ t, step (runAt true true true) = .next t := ⟨by decide, _, rfl⟩

theorem witness_EveryStepKeepsStoppedPhasesZero :
    (readyStop.isRunning = false → readyStop.phaseDuty = ⟨0, 0, 0⟩) ∧
    ∃ t, step (showing readyStop 0x600000000#35) = .next t ∧ t.isRunning = false := ⟨by decide, _, rfl, rfl⟩

theorem witness_EveryStepKeepsRunningOnlyInReady :
    (readyStop.isRunning = true → readyStop.initState = .ready) ∧
    ∃ t, step (showing readyStop 0x300000000#35) = .next t ∧ t.isRunning = true := ⟨by decide, _, rfl, rfl⟩

theorem witness_InitStateTransitions :
    resetting.presented.rst = true ∧
    ((showing readyRun 0x100000000#35).presented.rst = false ∧
      (showing readyRun 0x100000000#35).presentedCommand = .init ∧ readyRun.initState ≠ .failed) ∧
    ((showing failedState 0x100000000#35).presented.rst = false ∧ failedState.initState = .failed) ∧
    (showing readyRun 0x300000000#35).presentedCommand ≠ .init := by decide

theorem witness_FailedBlockStaysFailedUntilReset :
    (∀ x ∈ [pins 0x100000000#35 true true true, pins 0x300000000#35 true false true], x.rst = false) ∧
    failedState.initState = .failed ∧ failedState.isRunning = false ∧ failedState.phaseDuty = ⟨0, 0, 0⟩ := by decide

theorem witness_RunOfResetStepsEndsInTheResetState :
    resetting.stimulus ≠ [] ∧ ∀ x ∈ resetting.stimulus, x.rst = true := by decide

theorem witness_NothingActsBeforeInit :
    (∀ x ∈ [pins 0x2000003E8#35 true true true, pins 0x300000000#35 true false true],
      x.rst = false ∧ decode State.reset.params.rpmInSigned x.cmd ≠ .init) ∧
    State.reset.initState = .uninit ∧ State.reset.isRunning = false ∧ State.reset.phaseDuty = ⟨0, 0, 0⟩ := by decide

theorem witness_StopStepAlwaysEndsDeenergised :
    (showing readyRun 0x400000000#35).presentedCommand = .stop ∧ resetting.presentedCommand = .stop := by decide

theorem witness_StartAfterStopReusesTheSpeed :
    readyRun.initState = .ready ∧ (pins 0x400000000#35 true false true).rst = false ∧
    (pins 0x300000000#35 false true true).rst = false ∧
    decode readyRun.params.rpmInSigned (pins 0x400000000#35 true false true).cmd = .stop ∧
    decode readyRun.params.rpmInSigned (pins 0x300000000#35 false true true).cmd = .start ∧
    (∀ z ∈ [pins 0x600000000#35 true true true, pins 0x300000000#35 true true true, pins 0x7DEADBEEF#35 true true true],
      z.rst = false ∧ decode readyRun.params.rpmInSigned z.cmd ≠ .init ∧
        ∀ rpm, decode readyRun.params.rpmInSigned z.cmd ≠ .setSpeed rpm) := by
  have h : ∀ i : Instr, i = .update ∨ i = .start ∨ i = .reserved → i ≠ .init ∧ ∀ rpm, i ≠ .setSpeed rpm := by
    rintro i (rfl | rfl | rfl) <;> simp
  refine ⟨by decide, by decide, by decide, by decide, by decide, fun z hz => ?_⟩
  simp only [List.mem_cons, List.not_mem_nil, or_false] at hz
  obtain rfl | rfl | rfl := hz <;> exact ⟨rfl, h _ (by decide)⟩

theorem witness_CommandAfterSetSpeedSeesTheNewSpeed :
    readyRun.params.Admissible ∧ readyRun.initState = .ready ∧ (pins 0x200001389#35 true false true).rst = false ∧
    decode readyRun.params.rpmInSigned (pins 0x200001389#35 true false true).cmd = .setSpeed 5001 ∧
    ((5000 : Nat) : Int) = min (max 5001 0) (readyRun.params.maxRpm : Int) ∧
    decode readyRun.params.rpmInSigned (pins 0x500000000#35 true false true).cmd = .getSpeed ∧
    decode readyRun.params.rpmInSigned (pins 0x300000000#35 true false true).cmd = .start := by decide

theorem witness_NoCommutationUpdateByItself :
    (showing readyRun 0x400000000#35).presented.rst = false ∧
    ¬ Commutates (showing readyRun 0x400000000#35).presentedCommand (showing readyRun 0x400000000#35) ∧
    ¬ Commutates (showing readyStop 0x600000000#35).presentedCommand (showing readyStop 0x600000000#35) := by
  have h : (showing readyRun 0x400000000#35).presentedCommand = .stop := by decide
  have h' : (showing readyStop 0x600000000#35).presentedCommand = .update := by decide
  refine ⟨by decide, ?_, ?_⟩
  · rw [h]
    simp [Commutates]
  · rw [h']
    simp [Commutates, showing, readyStop, State.reset, State.resetWith]

theorem witness_TableAndParametersAreFixed :
    (∃ t, step (showing readyRun 0x200000000#35) = .next t) ∧ ∃ t, step resetting = .next t := ⟨⟨_, rfl⟩, _, rfl⟩

theorem witness_EnergisedOnlyWhenReadyAndRunning :
    (showing readyStop 0x300000000#35).Inv ∧
    ∃ t, step (showing readyStop 0x300000000#35) = .next t ∧ t.phaseDuty ≠ ⟨0, 0, 0⟩ :=
  ⟨withInputs_inv readyStop_inv _ _, _, rfl, by decide⟩

theorem witness_AtMostTwoPhasesWithTheDefaultTable : readyRun.Inv ∧ readyRun.comm = defaultTable :=
  ⟨readyRun_inv, rfl⟩

theorem witness_RegistersFitTheirWidths : readyRun.Inv ∧ 0 < 2 ^ 0 ∧ 5000 < 2 ^ 13 := ⟨readyRun_inv, by decide⟩

theorem witness_OutputsAreCopiesOfState : readyStop.Inv ∧ readyRun.Inv := ⟨readyStop_inv, readyRun_inv⟩

end Sys2Proof.Tests
end

/-! PROOFS. The inputs of a step (spec/00_scope.md R9): what is presented, and what using it up leaves, for a listed
and for a drawn step; and that a step which is no reset step runs the decoded command. -/

namespace Sys2Proof.Machine

section stepInputs

variable {s : State} {x : StepInput} {xs : List StepInput}

theorem presented_of_stimulus_cons (h : s.stimulus = x :: xs) : s.presented = x := by
  simp [State.presented, h]

theorem presented_of_stimulus_nil (h : s.stimulus = []) : s.presented = drawnInput s.draws := by
  simp [State.presented, h]

theorem advanceInputs_of_stimulus_cons (h : s.stimulus = x :: xs) :
    s.advanceInputs = { s with stimulus := xs } := by
  simp [State.advanceInputs, h]

theorem advanceInputs_of_stimulus_nil (h : s.stimulus = []) :
    s.advanceInputs = { s with draws := s.draws + 1 } := by
  simp [State.advanceInputs, h]

end stepInputs

/-- Settles O33: the first clause is the model's law `step_of_exec`, and the other two are the two ways a step's inputs
come, listed or drawn. -/
theorem stepRunsTheDecodedCommand : Obligations.StepRunsTheDecodedCommand := by
  refine ⟨fun i s t hrst hdecode hexec => ?runs, fun s x xs hlist => ?listed, fun s hempty => ?drawn⟩
  case runs =>
    have hcommand : s.presentedCommand = i := hdecode
    exact step_of_exec hrst (hcommand ▸ hexec)
  case listed => exact ⟨presented_of_stimulus_cons hlist, advanceInputs_of_stimulus_cons hlist⟩
  case drawn => exact ⟨presented_of_stimulus_nil hempty, advanceInputs_of_stimulus_nil hempty⟩

end Sys2Proof.Machine

/-! PROOFS. What the state keeps (spec/10_state.md R20 to R33): the results a command can have, listed once, and from
them the frame facts about `dutyCycle` (R24) and `initState` (R27); and the bounds that let a phase register fit its
output port (R25, R32). -/

namespace Sys2Proof.Machine

section results

/-- The next states a command can have, one constructor for each branch of its rule in 43_controller_commands.md. -/
inductive ExecResult (s : State) : Instr → State → Prop
  /-- R160 -/
  | nop : ExecResult s .nop (respond .ok 0 s)
  /-- R164 -/
  | initStaysFailed (h : s.initState = .failed) : ExecResult s .init (respond .hwFail 0 s)
  /-- R163, `hw_init_ok = 1` -/
  | initReady (h : s.initState ≠ .failed) (hw : s.presented.hwInitOk = true) :
      ExecResult s .init (respond .ok 0 { stoppedAtZero s with initState := .ready })
  /-- R165, `hw_init_ok = 0` -/
  | initFails (h : s.initState ≠ .failed) (hw : s.presented.hwInitOk = false) :
      ExecResult s .init (respond .hwFail 0 { stoppedAtZero s with initState := .failed })
  /-- R166 -/
  | setSpeedReady (rpm : Int) (h : s.initState = .ready) :
      ExecResult s (.setSpeed rpm) (respond .ok 0 (commutateIfRunning (writeSpeed (speedOperand rpm s) s)))
  /-- R167 -/
  | setSpeedNotReady (rpm : Int) (h : s.initState ≠ .ready) :
      ExecResult s (.setSpeed rpm) (respond (statusOf s.initState) 0 s)
  /-- R169 -/
  | startReady (h : s.initState = .ready) :
      ExecResult s .start (respond .ok 0 (commutationUpdate { s with isRunning := true }))
  /-- R170 -/
  | startNotReady (h : s.initState ≠ .ready) : ExecResult s .start (respond (statusOf s.initState) 0 s)
  /-- R172 -/
  | stop : ExecResult s .stop (respond (statusOf s.initState) 0 (phasesOff { s with isRunning := false }))
  /-- R175 -/
  | getSpeed : ExecResult s .getSpeed (respond (statusOf s.initState) (speedData s) s)
  /-- R178 -/
  | update : ExecResult s .update (respond (statusOf s.initState) 0 (commutateIfRunning s))
  /-- R181 -/
  | reserved : ExecResult s .reserved (respond .illegal 0 s)

variable {i : Instr} {s t : State}

theorem exec_of_execResult (h : ExecResult s i t) : exec i s = .next t := by
  cases h <;> simp_all [exec, execNop, execInit, execSetSpeed, execStart, execStop, execGetSpeed, execUpdate,
    execReserved]

/-- Some branch of the command's rule applies in every state. -/
theorem exists_execResult (i : Instr) (s : State) : ∃ t, ExecResult s i t := by
  cases i with
  | nop => exact ⟨_, .nop⟩
  | init =>
    by_cases hfailed : s.initState = .failed
    · exact ⟨_, .initStaysFailed hfailed⟩
    · cases hw : s.presented.hwInitOk with
      | true => exact ⟨_, .initReady hfailed hw⟩
      | false => exact ⟨_, .initFails hfailed hw⟩
  | setSpeed rpm =>
    by_cases hready : s.initState = .ready
    · exact ⟨_, .setSpeedReady rpm hready⟩
    · exact ⟨_, .setSpeedNotReady rpm hready⟩
  | start =>
    by_cases hready : s.initState = .ready
    · exact ⟨_, .startReady hready⟩
    · exact ⟨_, .startNotReady hready⟩
  | stop => exact ⟨_, .stop⟩
  | getSpeed => exact ⟨_, .getSpeed⟩
  | update => exact ⟨_, .update⟩
  | reserved => exact ⟨_, .reserved⟩

/-- `ExecResult` is `exec`, read branch by branch. -/
theorem exec_eq_next_iff : exec i s = .next t ↔ ExecResult s i t := by
  refine ⟨fun h => ?_, exec_of_execResult⟩
  obtain ⟨u, hu⟩ := exists_execResult i s
  have htu : t = u := Host.Outcome.next.inj (h.symm.trans (exec_of_execResult hu))
  exact htu ▸ hu

/-- No branch of `exec` is a fault or a refusal (60_exceptions.md R203). -/
theorem exec_completes (i : Instr) (s : State) : ∃ t, exec i s = .next t :=
  (exists_execResult i s).imp fun _ => exec_of_execResult

/-- Only INIT and SET_SPEED write `commandedSpeed` or `dutyCycle`, and both go through `writeSpeed` (R23). -/
theorem exec_keeps_duty (h : exec i s = .next t) (hduty : s.dutyCycle = scaleDuty s.params s.commandedSpeed) :
    t.dutyCycle = scaleDuty t.params t.commandedSpeed := by
  cases exec_eq_next_iff.mp h with
  | initReady | initFails | setSpeedReady => simp
  | _ => simpa using hduty

/-- INIT outside FAILED decides `initState` by `hw_init_ok` (R27). -/
theorem exec_init_initState (h : exec .init s = .next t) (hs : s.initState ≠ .failed) :
    t.initState = if s.presented.hwInitOk then .ready else .failed := by
  cases exec_eq_next_iff.mp h with
  | initStaysFailed hfailed => exact absurd hfailed hs
  | initReady _ hw => simp [hw]
  | initFails _ hw => simp [hw]

/-- `initState` is written by INIT alone, and INIT in FAILED leaves it (R27). -/
theorem exec_keeps_initState (h : exec i s = .next t) (hi : i ≠ .init ∨ s.initState = .failed) :
    t.initState = s.initState := by
  cases exec_eq_next_iff.mp h with
  | initReady hs | initFails hs => exact absurd hi (by simp [hs])
  | _ => simp

theorem step_keeps_duty (h : step s = .next t) (hduty : s.dutyCycle = scaleDuty s.params s.commandedSpeed) :
    t.dutyCycle = scaleDuty t.params t.commandedSpeed := by
  obtain ⟨-, rfl⟩ | ⟨-, u, hu, rfl⟩ := step_cases h
  · simp [scaleDuty_zero]
  · simpa using exec_keeps_duty hu hduty

end results

/-- Settles O39: `scaleDuty` is R24's formula, 0 at reset's speed 0 and kept by `step_keeps_duty`. -/
theorem dutyIsAlwaysTheFunctionOfSpeed : Obligations.DutyIsAlwaysTheFunctionOfSpeed := by
  refine ⟨fun p t => ?reset, fun s t hduty hstep => ?step⟩
  case reset => exact (scaleDuty_zero p).symm
  case step => exact step_keeps_duty hstep hduty

/-- Settles O42: a reset step writes UNINIT; any other step ends as its command does, by `exec_init_initState` and
`exec_keeps_initState`. -/
theorem initStateTransitions : Obligations.InitStateTransitions := by
  refine ⟨⟨rfl, rfl, rfl⟩, fun s => ?_⟩
  cases hrst : s.presented.rst with
  | true => exact ⟨_, step_of_reset hrst, by simp⟩
  | false =>
    obtain ⟨u, hu⟩ := exec_completes s.presentedCommand s
    refine ⟨_, step_of_exec hrst hu, by simp, fun _ hinit hs => ?init, fun _ hi => ?other⟩
    case init => simpa using exec_init_initState (hinit ▸ hu) hs
    case other => simpa using exec_keeps_initState hu hi

section phaseBounds

theorem lt_two_pow_bitlen (n : Nat) : n < 2 ^ bitlen n := by
  unfold bitlen
  split
  · omega
  · exact Nat.lt_log2_self

theorem scaleDuty_le_pwmRange {p : Params} {speed : Nat} (h : speed ≤ p.maxRpm) :
    scaleDuty p speed ≤ p.pwmRange :=
  Nat.div_le_of_le_mul (Nat.mul_le_mul_right _ h)

theorem phaseMux_le (pat : Pattern) (duty : Nat) :
    (phaseMux pat duty).a ≤ duty ∧ (phaseMux pat duty).b ≤ duty ∧ (phaseMux pat duty).c ≤ duty := by
  refine ⟨?_, ?_, ?_⟩ <;> simp only [phaseMux] <;> split <;> omega

variable {s : State}

theorem State.Inv.dutyCycle_le (h : s.Inv) : s.dutyCycle ≤ s.params.pwmRange :=
  h.duty ▸ scaleDuty_le_pwmRange h.speed

/-- A running block drives each phase with its duty or 0, a stopped one with 0 (R25, R26). -/
theorem State.Inv.phaseDuty_le (h : s.Inv) :
    s.phaseDuty.a ≤ s.params.pwmRange ∧ s.phaseDuty.b ≤ s.params.pwmRange ∧
      s.phaseDuty.c ≤ s.params.pwmRange := by
  cases hrun : s.isRunning with
  | false =>
    have hoff : s.phaseDuty = ⟨0, 0, 0⟩ := h.stopped hrun
    simp [hoff]
  | true =>
    obtain ⟨code, hphases, -⟩ := h.running hrun
    obtain ⟨ha, hb, hc⟩ := phaseMux_le (lookup s.comm code) s.dutyCycle
    rw [hphases]
    exact ⟨ha.trans h.dutyCycle_le, hb.trans h.dutyCycle_le, hc.trans h.dutyCycle_le⟩

/-- A duty port of DUTY_W bits carries every legal duty without loss (R25, R32). -/
theorem toNat_ofNat_dutyW {p : Params} {duty : Nat} (h : duty ≤ p.pwmRange) :
    (BitVec.ofNat (dutyW p) duty).toNat = duty :=
  (BitVec.toNat_ofNat _ _).trans (Nat.mod_eq_of_lt (h.trans_lt (lt_two_pow_bitlen p.pwmRange)))

end phaseBounds

/-- Settles O55: the duty ports are wide enough for the phases of a good state, the other ports are copies by
definition, and `outputs` reads neither `stimulus` nor `draws`. -/
theorem outputsAreCopiesOfState : Obligations.OutputsAreCopiesOfState := by
  intro s hs
  obtain ⟨ha, hb, hc⟩ := hs.phaseDuty_le
  refine ⟨toNat_ofNat_dutyW ha, toNat_ofNat_dutyW hb, toNat_ofNat_dutyW hc, rfl, rfl, ?ready, ?failed, rfl, rfl,
    fun _ _ => rfl⟩
  case ready => simp [outputs]
  case failed => simp [outputs]

end Sys2Proof.Machine

/-! PROOFS. The two fields of a command word (spec/30_encoding.md R70): `cmd[34:32]` decides which command is decoded
(R72), and `arg` only SET_SPEED's operand (R71, R74). -/

namespace Sys2Proof

section fields

variable {signed : Bool} {w : CmdWord} {i : Instr}

theorem extractLsb_opcode (w : CmdWord) : w.extractLsb 34 32 = opField w := rfl

theorem extractLsb_arg (w : CmdWord) : w.extractLsb 31 0 = argField w := rfl

theorem opcode_cases (op : Opcode) :
    op = 0b000#3 ∨ op = 0b001#3 ∨ op = 0b010#3 ∨ op = 0b011#3 ∨ op = 0b100#3 ∨ op = 0b101#3 ∨ op = 0b110#3 ∨
      op = 0b111#3 := by
  revert op
  decide

/-- The decoded command is one whose opcode the word carries (R72). -/
@[simp] theorem opcodeOf_decode (signed : Bool) (w : CmdWord) : opcodeOf (decode signed w) = opField w := by
  obtain h | h | h | h | h | h | h | h := opcode_cases (opField w) <;> simp [decode, opcodeOf, h]

theorem decode_of_opField_setSpeed (h : opField w = 0b010#3) :
    decode signed w = .setSpeed (rpmIn signed (argField w)) := by
  simp [decode, h]

/-- A command other than SET_SPEED is determined by its opcode: it is what the word with that opcode and `arg = 0`
decodes to. -/
theorem decode_joinFields_opcodeOf (signed : Bool) (h : opcodeOf i ≠ 0b010#3) :
    decode signed (joinFields (opcodeOf i) 0) = i := by
  cases i with
  | setSpeed => exact absurd rfl h
  | _ => rfl

/-- Outside SET_SPEED, clearing `arg` does not change the command (R74). -/
theorem decode_clear_arg (h : opField w ≠ 0b010#3) :
    decode signed (joinFields (opField w) 0) = decode signed w := by
  rw [← opcodeOf_decode signed w] at h ⊢
  exact decode_joinFields_opcodeOf signed h

end fields

/-- Settles O28: the operand is `rpmIn` of the `arg` field, with the bounds of a 32-bit word in either reading; and two
words of one other opcode have the same word once `arg` is cleared. -/
theorem argIsReadBySetSpeedAlone : Obligations.ArgIsReadBySetSpeedAlone := by
  refine ⟨fun w hop => ?operand, fun signed w w' hop hother => ?ignored⟩
  case operand =>
    rw [extractLsb_arg]
    have hunsigned : (argField w).toNat < 2 ^ 32 := (argField w).isLt
    have hlow : -2 ^ 31 ≤ (argField w).toInt := BitVec.le_toInt _
    have hhigh : (argField w).toInt < 2 ^ 31 := BitVec.toInt_lt
    exact ⟨decode_of_opField_setSpeed hop, hlow, by omega, decode_of_opField_setSpeed hop, by omega⟩
  case ignored =>
    have hop' : opField w = opField w' := hop
    calc decode signed w
        = decode signed (joinFields (opField w) 0) := (decode_clear_arg hother).symm
      _ = decode signed (joinFields (opField w') 0) := by rw [hop']
      _ = decode signed w' := decode_clear_arg (hop' ▸ hother)

/-- Settles O27: the opcode field is the opcode of the decoded command, and no two commands of the eight share one. -/
theorem opcodeFieldSelectsTheCommand : Obligations.OpcodeFieldSelectsTheCommand := by
  intro signed w
  rw [extractLsb_opcode, ← opcodeOf_decode signed w]
  cases decode signed w <;> simp [opcodeOf]

end Sys2Proof

/-! PROOFS. The commutation table (spec/40_commutation_table.md): the value of the sampled Hall code (R100), and what
the table's fixed entries (R102) make a running block drive. -/

namespace Sys2Proof.Machine

section fixedCodes

/-- Three levels give a value of at most 7, so three bits hold it without loss. -/
theorem hallCode_toNat (a b c : Bool) :
    (hallCode a b c).toNat = 4 * a.toNat + 2 * b.toNat + c.toNat := by
  have ha := a.toNat_le
  have hb := b.toNat_le
  have hc := c.toNat_le
  exact (BitVec.toNat_ofNat _ _).trans (Nat.mod_eq_of_lt (by omega))

variable {t : CommTable} {code : HallCode} {s : State}

theorem lookup_three_of_fixedEntries (h : FixedEntries t) : lookup t 3#3 = ⟨true, true, false⟩ := by
  obtain ⟨-, h3, -, -⟩ := h
  exact h3

theorem lookup_five_of_fixedEntries (h : FixedEntries t) : lookup t 5#3 = ⟨true, false, true⟩ := by
  obtain ⟨-, -, h5, -⟩ := h
  exact h5

/-- The entries of the invalid codes 0 and 7 (R101) are all off. -/
theorem lookup_invalid_of_fixedEntries (h : FixedEntries t) (hcode : code = 0#3 ∨ code = 7#3) :
    lookup t code = allOff := by
  obtain ⟨h0, -, -, h7⟩ := h
  obtain rfl | rfl := hcode
  · exact h0
  · exact h7

theorem commutateIfRunning_of_isRunning (h : s.isRunning = true) :
    commutateIfRunning s = commutationUpdate s :=
  if_pos h

theorem exec_update_of_isRunning (h : s.isRunning = true) :
    exec .update s = .next (respond (statusOf s.initState) 0 (commutationUpdate s)) := by
  rw [← commutateIfRunning_of_isRunning h]
  exact exec_of_execResult .update

end fixedCodes

/-- Settles O14: a running UPDATE drives the phases from the table's entry for the sampled code, and R102 fixes the
entries for 3, 5, 0 and 7. -/
theorem updateDrivesTheFixedCodes : Obligations.UpdateDrivesTheFixedCodes := by
  intro s htable _ hrun
  obtain ⟨hfixed, -, -⟩ := htable
  refine ⟨_, exec_update_of_isRunning hrun, fun h3 => ?three, fun h5 => ?five, fun hinvalid => ?invalid⟩
  case three => simp [h3, lookup_three_of_fixedEntries hfixed, phaseMux]
  case five => simp [h5, lookup_five_of_fixedEntries hfixed, phaseMux]
  case invalid => simp [lookup_invalid_of_fixedEntries hfixed hinvalid, phaseMux_allOff]

/-- Settles O11: `hallRead` is `hallCode` of the presented levels. -/
theorem hallCodeComposition : Obligations.HallCodeComposition :=
  fun _ => hallCode_toNat _ _ _

end Sys2Proof.Machine

/-! PROOFS. The speed clamp and the scaler (spec/41_speed_scaler.md): the clamp by the range of its operand (R120), so
that SET_SPEED of the clamped operand is SET_SPEED itself (R121); and the duty as a truncated quotient (R122). -/

namespace Sys2Proof.Machine

section clamp

variable {p : Params} {rpm : Int} {s : State}

theorem clampSpeed_of_neg (h : rpm < 0) : clampSpeed p rpm = 0 :=
  clampSpeed_unique (by omega)

theorem clampSpeed_of_maxRpm_lt (h : (p.maxRpm : Int) < rpm) : clampSpeed p rpm = p.maxRpm :=
  clampSpeed_unique (by omega)

theorem clampSpeed_cast_of_inRange (h0 : 0 ≤ rpm) (hmax : rpm ≤ (p.maxRpm : Int)) :
    (clampSpeed p rpm : Int) = rpm := by
  rw [clampSpeed_cast, max_eq_left h0, min_eq_left hmax]

/-- A clamped operand is in range, so clamping it again changes nothing. -/
theorem clampSpeed_clampSpeed (p : Params) (rpm : Int) : clampSpeed p (clampSpeed p rpm : Int) = clampSpeed p rpm :=
  Int.ofNat_inj.mp (clampSpeed_cast_of_inRange (Int.natCast_nonneg _) (Int.ofNat_le.mpr (clampSpeed_le p rpm)))

theorem clampSpeed_lt_two_pow_speedW (p : Params) (rpm : Int) : clampSpeed p rpm < 2 ^ speedW p :=
  (clampSpeed_le p rpm).trans_lt (lt_two_pow_bitlen p.maxRpm)

/-- SET_SPEED in READY reads its operand through the clamp alone (R166). -/
theorem exec_setSpeed_congr {rpm' : Int} (hready : s.initState = .ready)
    (h : clampSpeed s.params rpm' = clampSpeed s.params rpm) :
    exec (.setSpeed rpm') s = exec (.setSpeed rpm) s := by
  have hspeed : speedOperand rpm' s = speedOperand rpm s := h
  rw [exec_of_execResult (.setSpeedReady rpm' hready), exec_of_execResult (.setSpeedReady rpm hready), hspeed]

end clamp

section quotient

variable {p : Params}

theorem scaleDuty_mul_maxRpm_le (p : Params) (speed : Nat) :
    scaleDuty p speed * p.maxRpm ≤ speed * p.pwmRange :=
  Nat.div_mul_le_self _ _

theorem lt_scaleDuty_succ_mul_maxRpm (hmax : 0 < p.maxRpm) (speed : Nat) :
    speed * p.pwmRange < (scaleDuty p speed + 1) * p.maxRpm :=
  Nat.mul_comm _ p.maxRpm ▸ Nat.lt_mul_div_succ (speed * p.pwmRange) hmax

theorem scaleDuty_lt_two_pow_dutyW {speed : Nat} (h : speed ≤ p.maxRpm) : scaleDuty p speed < 2 ^ dutyW p :=
  (scaleDuty_le_pwmRange h).trans_lt (lt_two_pow_bitlen p.pwmRange)

end quotient

/-- Settles O15: the clamp below, above and within its range, and its bound MAX_RPM, which SPEED_W bits hold. -/
theorem clampSpeedLimitsTheOperand : Obligations.ClampSpeedLimitsTheOperand := fun p rpm =>
  ⟨clampSpeed_of_neg, clampSpeed_of_maxRpm_lt, clampSpeed_cast_of_inRange, clampSpeed_lt_two_pow_speedW p rpm⟩

/-- Settles O16: the clamped operand is the in-range operand that answers the same next state. -/
theorem clampingIsNeverAnError : Obligations.ClampingIsNeverAnError := by
  intro rpm s hready
  have hrun := exec_of_execResult (.setSpeedReady rpm hready)
  have hsame := exec_setSpeed_congr hready (clampSpeed_clampSpeed s.params rpm)
  exact ⟨clampSpeed s.params rpm, _, Int.natCast_nonneg _, Int.ofNat_le.mpr (clampSpeed_le s.params rpm), hrun,
    hsame.trans hrun, rfl, rfl⟩

/-- Settles O17: the two inequalities of a truncated quotient, whose bound PWM_RANGE fits DUTY_W bits; and R122's
example, half of MAX_RPM, computed. -/
theorem scaleDutyIsTheTruncatedQuotient : Obligations.ScaleDutyIsTheTruncatedQuotient := by
  refine ⟨fun p speed hp hspeed => ?quotient, fun p hmax hpwm => ?half⟩
  case quotient =>
    obtain ⟨hmax, -, -, -⟩ := hp
    exact ⟨scaleDuty_mul_maxRpm_le p speed, lt_scaleDuty_succ_mul_maxRpm hmax speed, scaleDuty_le_pwmRange hspeed,
      scaleDuty_lt_two_pow_dutyW hspeed⟩
  case half => simp [scaleDuty, hmax, hpwm]

end Sys2Proof.Machine

/-! PROOFS. The phase multiplexer and the commutation update (spec/42_phase_mux.md): what one phase receives (R140,
R141); what a command that commutates answers (R143, R145); and that any other command leaves the phases and `hallFault`
alone, or writes zeros (R146). -/

namespace Sys2Proof.Machine

/-- The multiplexer's rule for one phase. -/
theorem phaseMux_phase (enabled : Bool) (d : Nat) :
    (enabled = true → (if enabled then d else 0) = d) ∧ (enabled = false → (if enabled then d else 0) = 0) := by
  cases enabled <;> simp

/-- Settles O20: each phase by the multiplexer's rule for one phase. -/
theorem phaseMuxDrivesExactlyTheEnabledPhases : Obligations.PhaseMuxDrivesExactlyTheEnabledPhases := by
  intro pat d
  obtain ⟨haOn, haOff⟩ := phaseMux_phase pat.enA d
  obtain ⟨hbOn, hbOff⟩ := phaseMux_phase pat.enB d
  obtain ⟨hcOn, hcOff⟩ := phaseMux_phase pat.enC d
  exact ⟨haOn, haOff, hbOn, hbOff, hcOn, hcOff⟩

section commutates

variable {i : Instr} {s t : State}

theorem commutates_start_iff : Commutates .start s ↔ s.initState = .ready := by
  simp [Commutates]

theorem commutates_setSpeed_iff {rpm : Int} :
    Commutates (.setSpeed rpm) s ↔ s.initState = .ready ∧ s.isRunning = true := by
  simp [Commutates]

theorem commutates_update_iff : Commutates .update s ↔ s.isRunning = true := by
  simp [Commutates]

theorem commutateIfRunning_of_not_isRunning (h : ¬ s.isRunning = true) : commutateIfRunning s = s :=
  if_neg h

/-- A command that commutates ends with a commutation update of a running state `u`, which samples the inputs of `s`
with the table of `s`; and it responds as any command in that `initState`. -/
theorem exec_of_commutates (h : Commutates i s) :
    ∃ u : State, exec i s = .next (respond (statusOf s.initState) 0 (commutationUpdate u)) ∧
      u.isRunning = true ∧ u.comm = s.comm ∧ hallRead u = hallRead s := by
  obtain ⟨rfl, hready⟩ | ⟨⟨rpm, rfl⟩, hready, hrun⟩ | ⟨rfl, hrun⟩ := h
  case inl =>
    rw [hready, statusOf_ready]
    exact ⟨_, exec_of_execResult (.startReady hready), rfl, rfl, rfl⟩
  case inr.inl =>
    have hrun' : (writeSpeed (speedOperand rpm s) s).isRunning = true := hrun
    refine ⟨_, ?_, hrun', rfl, rfl⟩
    rw [hready, statusOf_ready, ← commutateIfRunning_of_isRunning hrun']
    exact exec_of_execResult (.setSpeedReady rpm hready)
  case inr.inr => exact ⟨s, exec_update_of_isRunning hrun, hrun, rfl, rfl⟩

/-- What a command that commutates answers, field by field (R143). -/
theorem exists_exec_of_commutates (h : Commutates i s) :
    ∃ t, exec i s = .next t ∧ t.isRunning = true ∧ t.respStatus = statusOf s.initState ∧
      t.phaseDuty = phaseMux (lookup s.comm (hallRead s)) t.dutyCycle ∧ t.hallFault = invalidCode (hallRead s) := by
  obtain ⟨u, hexec, hrun, hcomm, hhall⟩ := exec_of_commutates h
  exact ⟨_, hexec, by simp [hrun, hcomm, hhall]⟩

/-- A command that does not commutate writes to the phases and to `hallFault` nothing but STOP's and INIT's zeros. -/
theorem exec_of_not_commutates (h : exec i s = .next t) (hc : ¬ Commutates i s) :
    (t.phaseDuty = s.phaseDuty ∨ ((i = .stop ∨ i = .init) ∧ t.phaseDuty = ⟨0, 0, 0⟩)) ∧
      (t.hallFault = s.hallFault ∨ (i = .init ∧ t.hallFault = false)) := by
  cases exec_eq_next_iff.mp h with
  | startReady hready => exact absurd (commutates_start_iff.mpr hready) hc
  | setSpeedReady rpm hready =>
    have hstopped : ¬ (writeSpeed (speedOperand rpm s) s).isRunning = true :=
      fun hrun => hc (commutates_setSpeed_iff.mpr ⟨hready, hrun⟩)
    simp [commutateIfRunning_of_not_isRunning hstopped]
  | update => simp [commutateIfRunning_of_not_isRunning (mt commutates_update_iff.mpr hc)]
  | initReady | initFails => exact ⟨.inr ⟨.inr rfl, rfl⟩, .inr ⟨rfl, rfl⟩⟩
  | stop => exact ⟨.inr ⟨.inl rfl, rfl⟩, .inl rfl⟩
  | _ => exact ⟨.inl rfl, .inl rfl⟩

end commutates

/-- Settles O21: the update is one record update, and `exists_exec_of_commutates` gives its effect in a command. -/
theorem commutationUpdateWritesPhasesAndFault : Obligations.CommutationUpdateWritesPhasesAndFault := by
  refine ⟨fun s => ?update, fun i s hcommutates => ?command⟩
  case update => rw [commutationUpdate_eq, invalidCode_eq_decide]
  case command =>
    obtain ⟨t, hexec, hrun, -, hphases, hfault⟩ := exists_exec_of_commutates hcommutates
    exact ⟨t, hexec, hrun, hphases, hfault.trans (invalidCode_eq_decide _)⟩

/-- Settles O22: in READY and running all three commands commutate, and the table's entries for codes 0 and 7 are
all off. -/
theorem invalidHallCodeDeenergisesWithoutError : Obligations.InvalidHallCodeDeenergisesWithoutError := by
  intro i s htable hready hrun hi
  obtain ⟨hfixed, -, -⟩ := htable
  have hcommutates : Commutates i s := by
    obtain rfl | rfl | ⟨rpm, rfl⟩ := hi
    · exact commutates_start_iff.mpr hready
    · exact commutates_update_iff.mpr hrun
    · exact commutates_setSpeed_iff.mpr ⟨hready, hrun⟩
  obtain ⟨t, hexec, hrun', hstatus, hphases, hfault⟩ := exists_exec_of_commutates hcommutates
  rw [invalidCode_eq_decide] at hfault
  rw [hready, statusOf_ready] at hstatus
  refine ⟨t, hexec, hrun', hstatus, fun hinvalid => ⟨?_, ?_⟩, fun h0 h7 => ⟨hphases, ?_⟩⟩
  · rw [hphases, lookup_invalid_of_fixedEntries hfixed hinvalid, phaseMux_allOff]
  · simpa [hinvalid] using hfault
  · simpa [h0, h7] using hfault

/-- Settles O49: a step that is no reset step writes what its command writes. -/
theorem noCommutationUpdateByItself : Obligations.NoCommutationUpdateByItself := by
  intro s hrst hcommutates
  obtain ⟨u, hu⟩ := exec_completes s.presentedCommand s
  refine ⟨_, step_of_exec hrst hu, ?_⟩
  simpa using exec_of_not_commutates hu hcommutates

end Sys2Proof.Machine

/-! PROOFS. The controller's commands (spec/43_controller_commands.md): what each one answers, branch by branch, as one
record update of the state (R160 to R181). -/

namespace Sys2Proof.Machine

section answers

variable {s : State}

/-- `st(initState)` as the spec's list of its values. -/
theorem statusOf_eq_ite (i : InitState) :
    statusOf i = if i = .ready then .ok else if i = .uninit then .notInit else .hwFail := by
  cases i <;> rfl

theorem exec_setSpeed_of_not_ready (rpm : Int) (h : s.initState ≠ .ready) :
    exec (.setSpeed rpm) s = .next { s with respStatus := statusOf s.initState, respData := 0 } :=
  exec_of_execResult (.setSpeedNotReady rpm h)

theorem exec_start_of_not_ready (h : s.initState ≠ .ready) :
    exec .start s = .next { s with respStatus := statusOf s.initState, respData := 0 } :=
  exec_of_execResult (.startNotReady h)

theorem exec_init_of_failed (h : s.initState = .failed) :
    exec .init s = .next { s with respStatus := .hwFail, respData := 0 } :=
  exec_of_execResult (.initStaysFailed h)

/-- The state INIT enters has duty 0, because the scaler takes speed 0 to duty 0 (R163, 41_speed_scaler.md R123). -/
theorem stoppedAtZero_eq (s : State) :
    stoppedAtZero s = { s with
      commandedSpeed := 0, dutyCycle := 0, isRunning := false, phaseDuty := ⟨0, 0, 0⟩, hallFault := false } := by
  unfold stoppedAtZero
  rw [phasesOff_eq, writeSpeed_eq, scaleDuty_zero]

/-- 32 bits hold every legal speed, since MAX_RPM is below 2^31 (00_scope.md R5). -/
theorem speedData_toNat (hp : s.params.Admissible) (hspeed : s.commandedSpeed ≤ s.params.maxRpm) :
    (speedData s).toNat = s.commandedSpeed := by
  obtain ⟨-, hmax, -, -⟩ := hp
  exact (BitVec.toNat_ofNat _ _).trans (Nat.mod_eq_of_lt (by omega))

theorem speedData_of_commandedSpeed_zero (h : s.commandedSpeed = 0) : speedData s = 0 := by
  simp [speedData, h]

end answers

/-- Settles O3: in READY the written speed is the clamped operand `v` and the duty its `scaleDuty`; whether a
commutation update follows is `isRunning` alone; outside READY only `st(initState)` is answered. -/
theorem setSpeedClampsScalesAndCommutates : Obligations.SetSpeedClampsScalesAndCommutates := by
  intro rpm s v hv
  have hclamp : speedOperand rpm s = v := clampSpeed_unique hv
  refine ⟨fun hready hstop => ?stopped, fun hready hrun => ?running, fun huninit => ?uninit, fun hfailed => ?failed⟩
  case stopped =>
    have hstop' : ¬ (writeSpeed v s).isRunning = true := by simp [hstop]
    rw [exec_of_execResult (.setSpeedReady rpm hready), hclamp, commutateIfRunning_of_not_isRunning hstop']
    rfl
  case running =>
    have hrun' : (writeSpeed v s).isRunning = true := hrun
    rw [exec_of_execResult (.setSpeedReady rpm hready), hclamp, commutateIfRunning_of_isRunning hrun',
      ← invalidCode_eq_decide]
    rfl
  case uninit => rw [exec_setSpeed_of_not_ready rpm (by simp [huninit]), huninit, statusOf_uninit]
  case failed => rw [exec_setSpeed_of_not_ready rpm (by simp [hfailed]), hfailed, statusOf_failed]

/-- Settles O4: in READY START is a commutation update of the running state; outside READY only `st(initState)` is
answered. -/
theorem startRunsAndCommutatesInReady : Obligations.StartRunsAndCommutatesInReady := by
  refine fun s => ⟨fun hready => ?ready, fun huninit => ?uninit, fun hfailed => ?failed⟩
  case ready =>
    rw [exec_of_execResult (.startReady hready), ← invalidCode_eq_decide]
    rfl
  case uninit => rw [exec_start_of_not_ready (by simp [huninit]), huninit, statusOf_uninit]
  case failed => rw [exec_start_of_not_ready (by simp [hfailed]), hfailed, statusOf_failed]

/-- Settles O5: STOP has one branch, whatever `initState` is. -/
theorem stopDeenergisesInEveryInitState : Obligations.StopDeenergisesInEveryInitState := by
  intro s
  rw [exec_of_execResult .stop, statusOf_eq_ite]
  rfl

/-- Settles O6: the data is `speedData`, which loses no bit of a legal speed; a good state that is not READY has
speed 0. -/
theorem getSpeedRespondsWithCommandedSpeed : Obligations.GetSpeedRespondsWithCommandedSpeed := by
  refine fun s hp hspeed => ⟨speedData s, speedData_toNat hp hspeed, ?answer, fun hinv hready => ?zero⟩
  case answer =>
    rw [exec_of_execResult .getSpeed, statusOf_eq_ite]
    rfl
  case zero =>
    obtain ⟨hzero, -, -, -⟩ := hinv.notReady hready
    exact speedData_of_commandedSpeed_zero hzero

/-- Settles O7: UPDATE is a commutation update of a running state, and of a stopped state the identity, before it
responds. -/
theorem updateCommutatesOnlyWhenRunning : Obligations.UpdateCommutatesOnlyWhenRunning := by
  refine fun s => ⟨fun hrun => ?running, fun hstop => ?stopped⟩
  case running =>
    rw [exec_update_of_isRunning hrun, statusOf_eq_ite, ← invalidCode_eq_decide]
    rfl
  case stopped =>
    rw [exec_of_execResult .update, commutateIfRunning_of_not_isRunning (by simp [hstop]), statusOf_eq_ite]
    rfl

/-- Settles O1: NOP's one branch only responds. -/
theorem nopRespondsOkAndChangesNothingElse : Obligations.NopRespondsOkAndChangesNothingElse :=
  fun _ => exec_of_execResult .nop

/-- Settles O2: INIT's three branches, by FAILED and by `hw_init_ok`. -/
theorem initReinitialisesOutsideFailed : Obligations.InitReinitialisesOutsideFailed := by
  refine fun s => ⟨fun hs hw => ?ready, fun hs hw => ?fails, exec_init_of_failed⟩
  case ready =>
    rw [exec_of_execResult (.initReady hs hw), stoppedAtZero_eq]
    rfl
  case fails =>
    rw [exec_of_execResult (.initFails hs hw), stoppedAtZero_eq]
    rfl

/-- Settles O8: the reserved opcode's one branch only responds. -/
theorem reservedOpcodeRespondsIllegalOnly : Obligations.ReservedOpcodeRespondsIllegalOnly :=
  fun _ => exec_of_execResult .reserved

end Sys2Proof.Machine

/-! PROOFS. Runs of commands without a reset (spec/43_controller_commands.md): a property that each command keeps holds
at the end of the run; from it, a block at rest outside READY stays as it is (R164), and STOP and START keep the speed
(R174). -/

namespace Sys2Proof.Machine

section runs

variable {s u : State} {x : StepInput} {xs : List StepInput}

theorem runInputs_nil (s : State) : s.runInputs [] = .next { s with stimulus := [] } := rfl

theorem runInputs_singleton {i : Instr} (hrst : x.rst = false) (hcmd : decode s.params.rpmInSigned x.cmd = i)
    (h : ExecResult { s with stimulus := [x] } i u) : s.runInputs [x] = .next { u with stimulus := [] } :=
  (runInputs_cons hrst (hcmd ▸ exec_of_execResult h)).trans (runInputs_nil u)

/-- What each command of `xs` keeps, whatever inputs are still to come, holds when `xs` is used up and the run goes on
with `ys`. -/
theorem runInputs_append_of_kept {P : State → Prop} (ys : List StepInput) (hrst : ∀ x ∈ xs, x.rst = false)
    (hkept : ∀ x ∈ xs, ∀ (l : List StepInput) (s u : State), P s →
      exec (decode s.params.rpmInSigned x.cmd) { s with stimulus := l } = .next u → P u) (hs : P s) :
    ∃ t, s.runInputs (xs ++ ys) = t.runInputs ys ∧ P t := by
  induction xs generalizing s with
  | nil => exact ⟨s, rfl, hs⟩
  | cons x xs ih =>
    rw [List.forall_mem_cons] at hrst hkept
    obtain ⟨hx, hxs⟩ := hrst
    obtain ⟨hkx, hkxs⟩ := hkept
    obtain ⟨u, hu⟩ := exec_completes (decode s.params.rpmInSigned x.cmd) { s with stimulus := x :: (xs ++ ys) }
    obtain ⟨t, hrun, ht⟩ := ih hxs hkxs (hkx _ s u hs hu)
    exact ⟨t, (runInputs_cons hx hu).trans hrun, ht⟩

/-- The same for a whole run, at whose end no input is listed. -/
theorem runInputs_of_kept {P : State → Prop} (hrst : ∀ x ∈ xs, x.rst = false)
    (hkept : ∀ x ∈ xs, ∀ (l : List StepInput) (s u : State), P s →
      exec (decode s.params.rpmInSigned x.cmd) { s with stimulus := l } = .next u → P u)
    (hend : ∀ t, P t → P { t with stimulus := [] }) (hs : P s) : ∃ t, s.runInputs xs = .next t ∧ P t := by
  obtain ⟨t, hrun, ht⟩ := runInputs_append_of_kept [] hrst hkept hs
  rw [List.append_nil, runInputs_nil] at hrun
  exact ⟨_, hrun, hend t ht⟩

end runs

section atRest

variable {i : Instr} {r s t : State}

theorem sameButResponse_trans (hrs : r.SameButResponse s) (hst : s.SameButResponse t) : r.SameButResponse t := by
  obtain ⟨h1, h2, h3, h4, h5, h6, h7, h8⟩ := hrs
  obtain ⟨k1, k2, k3, k4, k5, k6, k7, k8⟩ := hst
  exact ⟨h1.trans k1, h2.trans k2, h3.trans k3, h4.trans k4, h5.trans k5, h6.trans k6, h7.trans k7, h8.trans k8⟩

/-- In a stopped, de-energised block that is not READY, a command only responds, unless it is INIT outside FAILED. -/
theorem exec_sameButResponse_of_atRest (h : exec i s = .next t) (hready : s.initState ≠ .ready)
    (hstop : s.isRunning = false) (hoff : s.phaseDuty = ⟨0, 0, 0⟩) (hi : i ≠ .init ∨ s.initState = .failed) :
    t.SameButResponse s := by
  cases exec_eq_next_iff.mp h with
  | initReady hs | initFails hs => exact absurd hi (by simp [hs])
  | setSpeedReady _ hr | startReady hr => exact absurd hr hready
  | stop => simp [State.SameButResponse, hstop, hoff]
  | update => simp [State.SameButResponse, commutateIfRunning_of_not_isRunning, hstop]
  | _ => simp [State.SameButResponse]

/-- The same for a run: only INIT outside FAILED wakes a block at rest outside READY. -/
theorem runInputs_sameButResponse_of_atRest {xs : List StepInput} (hrst : ∀ x ∈ xs, x.rst = false)
    (hcmd : ∀ x ∈ xs, decode s.params.rpmInSigned x.cmd ≠ .init ∨ s.initState = .failed)
    (hready : s.initState ≠ .ready) (hstop : s.isRunning = false) (hoff : s.phaseDuty = ⟨0, 0, 0⟩) :
    ∃ t, s.runInputs xs = .next t ∧ t.SameButResponse s := by
  refine runInputs_of_kept (P := fun t => t.SameButResponse s) hrst (fun x hx l r u hr hu => ?_) (fun _ ht => ht)
    ⟨rfl, rfl, rfl, rfl, rfl, rfl, rfl, rfl⟩
  have ⟨hparams, _, _, hrunning, _, hphases, hinit, _⟩ := hr
  have hcmd' : decode r.params.rpmInSigned x.cmd ≠ .init ∨ r.initState = .failed := by
    rw [hparams, hinit]
    exact hcmd x hx
  exact sameButResponse_trans
    (exec_sameButResponse_of_atRest hu (hinit ▸ hready) (hrunning.trans hstop) (hphases.trans hoff) hcmd') hr

end atRest

/-- Settles O43: FAILED is not READY, and in FAILED the block at rest is kept by every command, INIT included. -/
theorem failedBlockStaysFailedUntilReset : Obligations.FailedBlockStaysFailedUntilReset := by
  refine ⟨fun s => exec_init_of_failed, fun xs s hrst hfailed hstop hoff => ?_⟩
  have hready : s.initState ≠ .ready := by simp [hfailed]
  obtain ⟨t, hrun, ht⟩ := runInputs_sameButResponse_of_atRest hrst (fun _ _ => .inr hfailed) hready hstop hoff
  obtain ⟨-, -, hspeed, hstop', -, hoff', hinit, -⟩ := ht
  exact ⟨t, hrun, hinit.trans hfailed, hstop'.trans hstop, hoff'.trans hoff, hspeed⟩

section settings

variable {i : Instr} {r s t : State}

/-- Equal in what only a reset, INIT and SET_SPEED write (10_state.md R20), and in what nothing writes. -/
def State.SameSettings (s t : State) : Prop :=
  s.params = t.params ∧ s.comm = t.comm ∧ s.initState = t.initState ∧ s.commandedSpeed = t.commandedSpeed ∧
    s.dutyCycle = t.dutyCycle

theorem sameSettings_trans (hrs : r.SameSettings s) (hst : s.SameSettings t) : r.SameSettings t := by
  obtain ⟨h1, h2, h3, h4, h5⟩ := hrs
  obtain ⟨k1, k2, k3, k4, k5⟩ := hst
  exact ⟨h1.trans k1, h2.trans k2, h3.trans k3, h4.trans k4, h5.trans k5⟩

/-- The commands other than INIT and SET_SPEED keep speed, duty and `initState`. -/
theorem exec_sameSettings (h : exec i s = .next t) (hinit : i ≠ .init) (hspeed : ∀ rpm, i ≠ .setSpeed rpm) :
    t.SameSettings s := by
  cases exec_eq_next_iff.mp h with
  | initStaysFailed | initReady | initFails => exact absurd rfl hinit
  | setSpeedReady rpm | setSpeedNotReady rpm => exact absurd rfl (hspeed rpm)
  | _ => simp [State.SameSettings]

/-- The same for the first inputs `xs` of a run. -/
theorem runInputs_append_sameSettings {xs : List StepInput} (ys : List StepInput) (hrst : ∀ x ∈ xs, x.rst = false)
    (hcmd : ∀ x ∈ xs, decode s.params.rpmInSigned x.cmd ≠ .init ∧
      ∀ rpm, decode s.params.rpmInSigned x.cmd ≠ .setSpeed rpm) :
    ∃ t : State, s.runInputs (xs ++ ys) = t.runInputs ys ∧ t.SameSettings s := by
  refine runInputs_append_of_kept (P := fun t => t.SameSettings s) ys hrst (fun x hx l r u hr hu => ?_)
    ⟨rfl, rfl, rfl, rfl, rfl⟩
  have ⟨hparams, _⟩ := hr
  obtain ⟨hinit, hspeed⟩ := hparams ▸ hcmd x hx
  exact sameSettings_trans (exec_sameSettings hu hinit hspeed) hr

/-- STOP's step (R172). -/
theorem runInputs_stop {x : StepInput} (hrst : x.rst = false) (hcmd : decode s.params.rpmInSigned x.cmd = .stop) :
    ∃ t, s.runInputs [x] = .next t ∧ t.commandedSpeed = s.commandedSpeed ∧ t.dutyCycle = s.dutyCycle ∧
      t.isRunning = false ∧ t.phaseDuty = ⟨0, 0, 0⟩ :=
  ⟨_, runInputs_singleton hrst hcmd .stop, rfl, rfl, rfl, rfl⟩

/-- START's step in READY drives the phases from the present duty (R169). -/
theorem runInputs_start {x : StepInput} (hrst : x.rst = false) (hcmd : decode s.params.rpmInSigned x.cmd = .start)
    (hready : s.initState = .ready) :
    ∃ t, s.runInputs [x] = .next t ∧ t.commandedSpeed = s.commandedSpeed ∧ t.dutyCycle = s.dutyCycle ∧
      t.isRunning = true ∧
      t.phaseDuty = phaseMux (lookup s.comm (hallCode x.hallA x.hallB x.hallC)) s.dutyCycle :=
  ⟨_, runInputs_singleton hrst hcmd (.startReady hready), rfl, rfl, rfl, rfl⟩

end settings

/-- Settles O47: STOP and the commands after it keep the settings, so the START samples its code with the speed, the
duty and the table of before the STOP. -/
theorem startAfterStopReusesTheSpeed : Obligations.StartAfterStopReusesTheSpeed := by
  intro s x y ys hready hx hy hstop hstart hys
  refine ⟨runInputs_stop hx hstop, ?_⟩
  have hrst : ∀ z ∈ x :: ys, z.rst = false :=
    List.forall_mem_cons.mpr ⟨hx, fun z hz => (hys z hz).1⟩
  have hcmd : ∀ z ∈ x :: ys, decode s.params.rpmInSigned z.cmd ≠ .init ∧
      ∀ rpm, decode s.params.rpmInSigned z.cmd ≠ .setSpeed rpm :=
    List.forall_mem_cons.mpr ⟨by simp [hstop], fun z hz => (hys z hz).2⟩
  obtain ⟨t, hrun, hparams, hcomm, hinit, hspeed, hduty⟩ := runInputs_append_sameSettings [y] hrst hcmd
  obtain ⟨u, hu, huspeed, huduty, hurun, huphases⟩ :=
    runInputs_start hy (hparams ▸ hstart) (hinit.trans hready)
  rw [hcomm, hduty] at huphases
  exact ⟨u, hrun.trans hu, huspeed.trans hspeed, huduty.trans hduty, hurun, huphases⟩

end Sys2Proof.Machine

/-! PROOFS. The block raises no exception (spec/60_exceptions.md R203): no step, reset or not, faults or refuses. -/

namespace Sys2Proof.Machine

/-- Settles O51: a reset step answers the reset values whatever is presented, and any other step ends as its command
does, which completes in every state by `exec_completes`. -/
theorem everyStepCompletes : Obligations.EveryStepCompletes := by
  intro s
  cases hrst : s.presented.rst with
  | true => exact ⟨_, step_of_reset hrst⟩
  | false =>
    obtain ⟨u, hu⟩ := exec_completes s.presentedCommand s
    exact ⟨_, step_of_exec hrst hu⟩

end Sys2Proof.Machine

/-! PROOFS. Reset steps and the block before its first INIT (spec/70_reset_and_hazards.md section 1): what a reset step
writes is a good state (R230), any number of reset steps writes what one of them does (R231), and an uninitialised block
at rest stays at rest (R232). -/

namespace Sys2Proof.Machine

section resetSteps

variable {s : State} {x : StepInput} {xs : List StepInput}

/-- A reset leaves the block's whole content at rest, so only the parameters and the table have to be good before it. -/
theorem resetBlock_inv (hparams : s.params.Admissible) (htable : AdmissibleTable s.comm) : (resetBlock s).Inv where
  params := hparams
  table := htable
  speed := Nat.zero_le _
  duty := (scaleDuty_zero _).symm
  notReady := fun _ => ⟨rfl, rfl, rfl, rfl⟩
  stopped := fun _ => rfl
  running := nofun

theorem resetBlock_resetBlock (s : State) : resetBlock (resetBlock s) = resetBlock s := rfl

theorem resetBlock_sameButResponse_resetWith (s : State) :
    (resetBlock s).SameButResponse (State.resetWith s.params s.comm) :=
  ⟨rfl, rfl, rfl, rfl, rfl, rfl, rfl, rfl⟩

/-- One reset step or more do what one does, since resetting is idempotent. -/
theorem runInputs_cons_of_all_reset (hrst : ∀ y ∈ x :: xs, y.rst = true) :
    s.runInputs (x :: xs) = .next { resetBlock s with stimulus := [] } := by
  induction xs generalizing s x with
  | nil =>
    rw [runInputs_reset (hrst x List.mem_cons_self), runInputs_nil]
  | cons y ys ih =>
    obtain ⟨hx, hys⟩ := List.forall_mem_cons.mp hrst
    rw [runInputs_reset hx, ih hys, resetBlock_resetBlock]

end resetSteps

/-- Settles O34: the step answers `resetBlock` with its inputs used up, which touches no element of the block. -/
theorem resetStepWritesTheResetValues : Obligations.ResetStepWritesTheResetValues := by
  intro s hrst
  have hinv (hparams : s.params.Admissible) (htable : AdmissibleTable s.comm) : (resetBlock s).advanceInputs.Inv :=
    advanceInputs_inv (resetBlock_inv hparams htable)
  refine ⟨_, step_of_reset hrst, ?_⟩
  simpa using hinv

/-- Settles O44: the run answers `resetBlock`, which is the reset state with the block's own parameters and table. -/
theorem runOfResetStepsEndsInTheResetState : Obligations.RunOfResetStepsEndsInTheResetState := by
  intro xs s hne hrst
  cases xs with
  | nil => exact absurd rfl hne
  | cons x xs =>
    exact ⟨_, runInputs_cons_of_all_reset hrst, resetBlock_sameButResponse_resetWith s, rfl, rfl⟩

/-- Settles O45: UNINIT is not READY, so without an INIT every command finds the block at rest and only responds. -/
theorem nothingActsBeforeInit : Obligations.NothingActsBeforeInit := by
  intro xs s hcmds huninit hstop hoff
  have hrst : ∀ x ∈ xs, x.rst = false := fun x hx => (hcmds x hx).1
  have hcmd : ∀ x ∈ xs, decode s.params.rpmInSigned x.cmd ≠ .init := fun x hx => (hcmds x hx).2
  have hready : s.initState ≠ .ready := by simp [huninit]
  obtain ⟨t, hrun, ht⟩ :=
    runInputs_sameButResponse_of_atRest hrst (fun x hx => .inl (hcmd x hx)) hready hstop hoff
  obtain ⟨-, -, hspeed, hstop', hduty, hoff', hinit, hfault⟩ := ht
  exact ⟨t, hrun, hinit.trans huninit, hstop'.trans hstop, hoff'.trans hoff, hspeed, hduty, hfault⟩

end Sys2Proof.Machine

/-! PROOFS. The invariant of the state machine (spec/43_controller_commands.md R184): it holds at reset, each command
and so each step keeps it, and what a good state says about energised phases (42_phase_mux.md R140 to R143), about the
default table (90_conflicts.md C1) and about the registers' widths (00_scope.md R5). -/

namespace Sys2Proof.Machine

section keepsInvariant

variable {i : Instr} {s t : State}

theorem State.Inv.ready_of_isRunning (h : s.Inv) (hrun : s.isRunning = true) : s.initState = .ready := by
  by_contra hready
  obtain ⟨-, hstop, -, -⟩ := h.notReady hready
  exact Bool.eq_false_iff.mp hstop hrun

/-- A commutation update makes a good state of every running READY state whose speed is legal and whose duty is its
function: it writes the phases and `hallFault`, which those states may have wrong (R143). -/
theorem commutationUpdate_inv (hparams : s.params.Admissible) (htable : AdmissibleTable s.comm)
    (hspeed : s.commandedSpeed ≤ s.params.maxRpm) (hduty : s.dutyCycle = scaleDuty s.params s.commandedSpeed)
    (hready : s.initState = .ready) (hrun : s.isRunning = true) : (commutationUpdate s).Inv where
  params := hparams
  table := htable
  speed := hspeed
  duty := hduty
  notReady := absurd hready
  stopped := fun hstop => absurd hrun (Bool.eq_false_iff.mp hstop)
  running := fun _ => commutationUpdate_showsSomeCode s

theorem commutateIfRunning_inv (h : s.Inv) : (commutateIfRunning s).Inv := by
  obtain ⟨hrun, hc⟩ | ⟨-, hc⟩ := commutateIfRunning_cases s
  · rw [hc]
    exact commutationUpdate_inv h.params h.table h.speed h.duty (h.ready_of_isRunning hrun) hrun
  · rwa [hc]

/-- SET_SPEED's new speed, with the commutation update of a running block (R166). -/
theorem commutateIfRunning_writeSpeed_inv {v : Nat} (h : s.Inv) (hready : s.initState = .ready)
    (hv : v ≤ s.params.maxRpm) : (commutateIfRunning (writeSpeed v s)).Inv := by
  obtain ⟨hrun, hc⟩ | ⟨hstop, hc⟩ := commutateIfRunning_cases (writeSpeed v s)
  · rw [hc]
    exact commutationUpdate_inv h.params h.table hv rfl hready hrun
  · rw [hc]
    exact ⟨h.params, h.table, hv, rfl, absurd hready, h.stopped,
      fun hrun => absurd hrun (Bool.eq_false_iff.mp hstop)⟩

/-- INIT's stopped state is a good one, whichever `initState` it enters (R163, R165). -/
theorem stoppedAtZero_inv (h : s.Inv) (j : InitState) : State.Inv { stoppedAtZero s with initState := j } where
  params := h.params
  table := h.table
  speed := Nat.zero_le _
  duty := rfl
  notReady := fun _ => ⟨rfl, rfl, rfl, rfl⟩
  stopped := fun _ => rfl
  running := nofun

/-- STOP's state (R172). -/
theorem phasesOff_stopped_inv (h : s.Inv) : (phasesOff { s with isRunning := false }).Inv where
  params := h.params
  table := h.table
  speed := h.speed
  duty := h.duty
  notReady := fun hready =>
    have ⟨hspeed, _, _, hfault⟩ := h.notReady hready
    ⟨hspeed, rfl, rfl, hfault⟩
  stopped := fun _ => rfl
  running := nofun

/-- Each command keeps the invariant; its response is no part of it. -/
theorem exec_inv (h : s.Inv) (hexec : exec i s = .next t) : t.Inv := by
  cases exec_eq_next_iff.mp hexec with
  | initReady | initFails => exact respond_inv (stoppedAtZero_inv h _) _ _
  | setSpeedReady rpm hready =>
    exact respond_inv (commutateIfRunning_writeSpeed_inv h hready (clampSpeed_le s.params rpm)) _ _
  | startReady hready =>
    exact respond_inv
      (commutationUpdate_inv (s := { s with isRunning := true }) h.params h.table h.speed h.duty hready rfl) _ _
  | stop => exact respond_inv (phasesOff_stopped_inv h) _ _
  | update => exact respond_inv (commutateIfRunning_inv h) _ _
  | _ => exact respond_inv h _ _

theorem step_inv (h : s.Inv) (hstep : step s = .next t) : t.Inv := by
  obtain ⟨-, rfl⟩ | ⟨-, u, hu, rfl⟩ := step_cases hstep
  · exact advanceInputs_inv (resetBlock_inv h.params h.table)
  · exact advanceInputs_inv (exec_inv h hu)

end keepsInvariant

/-- Settles O37: each command keeps the invariant, and a reset step enters a good state. -/
theorem everyStepKeepsTheInvariant : Obligations.EveryStepKeepsTheInvariant :=
  fun _ _ => step_inv

/-- The reset state is what a reset writes into itself. -/
theorem resetWith_inv {p : Params} {t : CommTable} (hparams : p.Admissible) (htable : AdmissibleTable t) :
    (State.resetWith p t).Inv :=
  resetBlock_inv (s := State.resetWith p t) hparams htable

/-- Settles O36: the reset state with any admissible parameters and table, of which the defaults are one choice. -/
theorem invariantHoldsAtReset : Obligations.InvariantHoldsAtReset := by
  have hparams : Config.defaultParams.Admissible := by decide
  have htable : AdmissibleTable defaultTable := by decide
  exact ⟨resetWith_inv hparams htable, fun p t => resetWith_inv⟩

section goodStates

variable {s : State}

/-- A good state drives a phase only while it runs in READY at a speed that is not 0, and only from the table's entry of
a valid code: with speed 0 the duty is 0, and the entries of the invalid codes are all off. -/
theorem State.Inv.of_energised (h : s.Inv) (hon : s.phaseDuty ≠ ⟨0, 0, 0⟩) :
    s.initState = .ready ∧ s.isRunning = true ∧ 0 < s.commandedSpeed ∧ s.hallFault = false := by
  have hrun : s.isRunning = true := by
    by_contra hstop
    exact hon (h.stopped (by simpa using hstop))
  obtain ⟨code, hphases, hfault⟩ := h.running hrun
  obtain ⟨hfixed, -, -⟩ := h.table
  refine ⟨h.ready_of_isRunning hrun, hrun, Nat.pos_of_ne_zero fun hzero => hon ?speed, ?fault⟩
  case speed => rw [hphases, h.duty, hzero, scaleDuty_zero, phaseMux_zero]
  case fault =>
    rw [hfault, invalidCode_eq_decide, decide_eq_false_iff_not]
    intro hinvalid
    exact hon (by rw [hphases, lookup_invalid_of_fixedEntries hfixed hinvalid, phaseMux_allOff])

/-- No entry of the default table enables all three phases (R104). -/
theorem lookup_defaultTable_some_disabled (code : HallCode) :
    (lookup defaultTable code).enA = false ∨ (lookup defaultTable code).enB = false ∨
      (lookup defaultTable code).enC = false := by
  revert code
  decide

theorem State.Inv.some_phase_zero_of_defaultTable (h : s.Inv) (htable : s.comm = defaultTable) :
    s.phaseDuty.a = 0 ∨ s.phaseDuty.b = 0 ∨ s.phaseDuty.c = 0 := by
  cases hrun : s.isRunning with
  | false =>
    have hoff : s.phaseDuty = ⟨0, 0, 0⟩ := h.stopped hrun
    simp [hoff]
  | true =>
    obtain ⟨code, hphases, -⟩ := h.running hrun
    rw [hphases, htable]
    obtain ⟨-, ha, -, hb, -, hc⟩ :=
      phaseMuxDrivesExactlyTheEnabledPhases (lookup defaultTable code) s.dutyCycle
    exact (lookup_defaultTable_some_disabled code).imp ha (Or.imp hb hc)

theorem bitlen_le_of_lt_two_pow {n w : Nat} (h : n < 2 ^ w) : bitlen n ≤ w := by
  unfold bitlen
  split
  · exact Nat.zero_le w
  · exact (Nat.log2_lt ‹_›).mpr h

end goodStates

/-- Settles O52: the step ends in a good state, which drives a phase only under these conditions. -/
theorem energisedOnlyWhenReadyAndRunning : Obligations.EnergisedOnlyWhenReadyAndRunning :=
  fun _ _ h hstep => (step_inv h hstep).of_energised

/-- Settles O53: a stopped block drives no phase, and a running one leaves off the phase that the default table's entry
disables. -/
theorem atMostTwoPhasesWithTheDefaultTable : Obligations.AtMostTwoPhasesWithTheDefaultTable :=
  fun _ => State.Inv.some_phase_zero_of_defaultTable

/-- Settles O54: `bitlen n` bits hold `n` and no fewer do; a legal speed is at most MAX_RPM, and the duties at most
PWM_RANGE, which the widths are the lengths of. -/
theorem registersFitTheirWidths : Obligations.RegistersFitTheirWidths := by
  refine ⟨fun n => ⟨lt_two_pow_bitlen n, fun w => bitlen_le_of_lt_two_pow⟩, fun s h => ?_⟩
  exact ⟨h.speed.trans_lt (lt_two_pow_bitlen _), h.dutyCycle_le, h.dutyCycle_le.trans_lt (lt_two_pow_bitlen _),
    h.phaseDuty_le⟩

end Sys2Proof.Machine

/-! PROOFS. Encoder, decoder and assembler agree (spec/30_encoding.md sections 1 to 4): the operand field and its
integer determine each other on the ranges of R71, in both readings, and outside SET_SPEED the opcode is the whole
command (R74). -/

namespace Sys2Proof

section operandField

variable {signed : Bool} {rpm : Int}

theorem operandInRange_signed_iff : operandInRange true rpm = true ↔ -2 ^ 31 ≤ rpm ∧ rpm ≤ 2 ^ 31 - 1 := by
  simp [operandInRange]

theorem operandInRange_unsigned_iff : operandInRange false rpm = true ↔ 0 ≤ rpm ∧ rpm ≤ 2 ^ 32 - 1 := by
  simp [operandInRange]

/-- The low 32 bits of an operand in range lose nothing (R76). -/
theorem rpmIn_ofInt (h : operandInRange signed rpm = true) : rpmIn signed (BitVec.ofInt 32 rpm) = rpm := by
  cases signed with
  | true =>
    obtain ⟨hlow, hhigh⟩ := operandInRange_signed_iff.mp h
    exact BitVec.toInt_ofInt_eq_self (by decide) hlow (by omega)
  | false =>
    obtain ⟨hlow, hhigh⟩ := operandInRange_unsigned_iff.mp h
    simp only [rpmIn, Bool.false_eq_true, if_false, BitVec.toNat_ofInt]
    omega

/-- Both readings of an operand field have its bits as their low 32 bits. -/
theorem ofInt_rpmIn (signed : Bool) (arg : Arg) : BitVec.ofInt 32 (rpmIn signed arg) = arg := by
  cases signed with
  | true => exact BitVec.ofInt_toInt
  | false => simp [rpmIn]

/-- An operand field has a value in R71's range. -/
theorem operandInRange_rpmIn (signed : Bool) (arg : Arg) : operandInRange signed (rpmIn signed arg) = true := by
  cases signed with
  | true =>
    have hlow : -2 ^ 31 ≤ arg.toInt := BitVec.le_toInt _
    have hhigh : arg.toInt < 2 ^ 31 := BitVec.toInt_lt
    exact operandInRange_signed_iff.mpr ⟨hlow, Int.le_sub_one_of_lt hhigh⟩
  | false =>
    have hlt : arg.toNat < 2 ^ 32 := arg.isLt
    have hvalue : rpmIn false arg = arg.toNat := rfl
    exact operandInRange_unsigned_iff.mpr (by omega)

end operandField

section inverses

variable {signed : Bool} {i : Instr} {w : CmdWord}

theorem opcodeOf_eq_setSpeed_iff : opcodeOf i = 0b010#3 ↔ ∃ rpm, i = .setSpeed rpm := by
  cases i <;> simp [opcodeOf]

theorem argOf_of_opcodeOf_ne (h : opcodeOf i ≠ 0b010#3) : argOf i = 0 := by
  cases i with
  | setSpeed => exact absurd rfl h
  | _ => rfl

theorem wellFormed_of_opcodeOf_ne (signed : Bool) (h : opcodeOf i ≠ 0b010#3) : WellFormed signed i = true := by
  cases i with
  | setSpeed => exact absurd rfl h
  | _ => rfl

theorem decode_encode (h : WellFormed signed i = true) : decode signed (encode i) = i := by
  by_cases hop : opcodeOf i = 0b010#3
  · obtain ⟨rpm, rfl⟩ := opcodeOf_eq_setSpeed_iff.mp hop
    obtain ⟨hopField, hargField⟩ := Laws.EncodedFields.setSpeed rpm
    have hrpm : rpmIn signed (argOf (.setSpeed rpm)) = rpm := rpmIn_ofInt h
    rw [decode_of_opField_setSpeed hopField, hargField, hrpm]
  · rw [encode, argOf_of_opcodeOf_ne hop, decode_joinFields_opcodeOf signed hop]

theorem wellFormed_decode (signed : Bool) (w : CmdWord) : WellFormed signed (decode signed w) = true := by
  by_cases hop : opField w = 0b010#3
  · rw [decode_of_opField_setSpeed hop]
    exact operandInRange_rpmIn signed (argField w)
  · exact wellFormed_of_opcodeOf_ne signed (by rwa [opcodeOf_decode])

theorem encode_decode_of_setSpeed (signed : Bool) (h : opField w = 0b010#3) : encode (decode signed w) = w := by
  have harg : argOf (decode signed w) = argField w := by
    rw [decode_of_opField_setSpeed h]
    exact ofInt_rpmIn signed (argField w)
  rw [encode, opcodeOf_decode, harg, joinFields_fields]

theorem encode_decode_of_ne_setSpeed (signed : Bool) (h : opField w ≠ 0b010#3) :
    encode (decode signed w) = joinFields (opField w) 0 := by
  rw [encode, argOf_of_opcodeOf_ne (by rwa [opcodeOf_decode]), opcodeOf_decode]

theorem assemble_eq_some_iff :
    assemble signed i = some w ↔ (i ≠ .reserved ∧ WellFormed signed i = true) ∧ encode i = w := by
  simp [assemble]

/-- SET_SPEED assembles exactly when its operand is in range (R76). -/
theorem exists_assemble_setSpeed_iff {rpm : Int} :
    (∃ w, assemble signed (.setSpeed rpm) = some w) ↔ operandInRange signed rpm = true := by
  simp [assemble_eq_some_iff, WellFormed]

end inverses

/-- Settles O30: the operand's low 32 bits read back as the operand, and every field reads as an operand in range. -/
theorem decodeOfEncodeIsTheInstruction : Obligations.DecodeOfEncodeIsTheInstruction :=
  fun signed => ⟨fun _ => decode_encode, wellFormed_decode signed⟩

/-- Settles O31: the encoder rebuilds both fields of a SET_SPEED word, and of any other word the opcode field. -/
theorem encodeOfDecodeIsTheCanonicalWord : Obligations.EncodeOfDecodeIsTheCanonicalWord := by
  refine fun signed w => ⟨encode_decode_of_setSpeed signed, fun hop => ?_⟩
  rw [encode_decode_of_ne_setSpeed signed hop, joinFields_toNat, opField_toNat]
  exact Nat.add_zero _

/-- Settles O32: an instruction assembles if it has a mnemonic and is well-formed, to its encoded word. -/
theorem assemblerAcceptsExactlyTheOperandRange : Obligations.AssemblerAcceptsExactlyTheOperandRange := by
  refine ⟨fun rpm => ?signed, fun rpm => ?unsigned, fun signed i w h => ?sound⟩
  case signed => rw [exists_assemble_setSpeed_iff, operandInRange_signed_iff]
  case unsigned => rw [exists_assemble_setSpeed_iff, operandInRange_unsigned_iff]
  case sound =>
    obtain ⟨⟨hmnemonic, hwf⟩, rfl⟩ := assemble_eq_some_iff.mp h
    exact ⟨hmnemonic, decode_encode hwf⟩

/-- Settles O29: twelve fixed words, decoded. -/
theorem wordsOfTheEncodingTable : Obligations.WordsOfTheEncodingTable := by
  unfold Obligations.WordsOfTheEncodingTable
  decide

end Sys2Proof

/-! PROOFS. What each command answers and what it leaves (spec/60_exceptions.md R201, spec/43_controller_commands.md
R183, spec/10_state.md R20): the response, the frame, and from them what every step keeps of `COMM` and the parameters
(R30, R31), of the stopped phases (R26) and of `isRunning` (43 R184), and what STOP's step always ends in
(70_reset_and_hazards.md R244). -/

namespace Sys2Proof.Machine

section responses

variable {i : Instr} {s t : State}

/-- GET_SPEED alone responds with data (R201). -/
theorem exec_respData_of_ne_getSpeed (h : exec i s = .next t) (hi : i ≠ .getSpeed) : t.respData = 0 := by
  cases exec_eq_next_iff.mp h with
  | getSpeed => exact absurd rfl hi
  | _ => rfl

theorem exec_getSpeed_respData (h : exec .getSpeed s = .next t) : t.respData = speedData s := by
  cases exec_eq_next_iff.mp h
  rfl

theorem exec_nop_respStatus (h : exec .nop s = .next t) : t.respStatus = .ok := by
  cases exec_eq_next_iff.mp h
  rfl

theorem exec_reserved_respStatus (h : exec .reserved s = .next t) : t.respStatus = .illegal := by
  cases exec_eq_next_iff.mp h
  rfl

theorem exec_init_respStatus_ok (h : exec .init s = .next t) (hs : s.initState ≠ .failed)
    (hw : s.presented.hwInitOk = true) : t.respStatus = .ok := by
  cases exec_eq_next_iff.mp h with
  | initStaysFailed hfailed => exact absurd hfailed hs
  | initReady => rfl
  | initFails _ hw' => exact absurd hw (Bool.eq_false_iff.mp hw')

theorem exec_init_respStatus_hwFail (h : exec .init s = .next t)
    (hs : s.initState = .failed ∨ s.presented.hwInitOk = false) : t.respStatus = .hwFail := by
  cases exec_eq_next_iff.mp h with
  | initReady hs' hw => exact absurd hs (not_or.mpr ⟨hs', by simp [hw]⟩)
  | initStaysFailed | initFails => rfl

/-- The commands other than NOP, INIT and the reserved opcode respond `st(initState)` (R183). -/
theorem exec_respStatus_eq_statusOf (h : exec i s = .next t) (hnop : i ≠ .nop) (hreserved : i ≠ .reserved)
    (hinit : i ≠ .init) : t.respStatus = statusOf s.initState := by
  cases exec_eq_next_iff.mp h with
  | nop => exact absurd rfl hnop
  | reserved => exact absurd rfl hreserved
  | initStaysFailed | initReady | initFails => exact absurd rfl hinit
  | setSpeedReady _ hready | startReady hready => simp [hready, statusOf_ready]
  | _ => rfl

end responses

/-- Settles O9: the data by the command alone, the status by the command, by INIT's outcome or by `st(initState)`. -/
theorem responseOfEveryCommand : Obligations.ResponseOfEveryCommand := by
  refine ⟨⟨rfl, rfl, rfl, rfl⟩, fun i s => ?_⟩
  obtain ⟨t, h⟩ := exec_completes i s
  refine ⟨t, h, exec_respData_of_ne_getSpeed h, ?legalSpeed, ?anySpeed, ?nop, ?reserved, ?initOk, ?initFails,
    fun hnop hreserved hinit => ?other⟩
  case legalSpeed =>
    rintro rfl hp hspeed
    rw [exec_getSpeed_respData h, speedData_toNat hp hspeed]
  case anySpeed =>
    rintro rfl
    exact exec_getSpeed_respData h
  case nop =>
    rintro rfl
    exact exec_nop_respStatus h
  case reserved =>
    rintro rfl
    exact exec_reserved_respStatus h
  case initOk =>
    rintro rfl
    exact exec_init_respStatus_ok h
  case initFails =>
    rintro rfl
    exact exec_init_respStatus_hwFail h
  case other =>
    have hstatus := exec_respStatus_eq_statusOf h hnop hreserved hinit
    refine ⟨fun hs => ?_, fun hs => ?_, fun hs => ?_⟩
    · rw [hstatus, hs, statusOf_ready]
    · rw [hstatus, hs, statusOf_uninit]
    · rw [hstatus, hs, statusOf_failed]

section frame

variable {i : Instr} {s t : State}

theorem exec_keeps_params_comm (h : exec i s = .next t) : t.params = s.params ∧ t.comm = s.comm := by
  cases exec_eq_next_iff.mp h <;> simp

/-- `isRunning` is written by INIT, START and STOP alone (R22). -/
theorem exec_keeps_isRunning (h : exec i s = .next t) (hinit : i ≠ .init) (hstart : i ≠ .start)
    (hstop : i ≠ .stop) : t.isRunning = s.isRunning := by
  cases exec_eq_next_iff.mp h with
  | initStaysFailed | initReady | initFails => exact absurd rfl hinit
  | startReady | startNotReady => exact absurd rfl hstart
  | stop => exact absurd rfl hstop
  | _ => simp

/-- In FAILED, STOP and UPDATE are the only commands that may write more than the response. -/
theorem exec_responds_only_of_failed (h : exec i s = .next t) (hfailed : s.initState = .failed) (hstop : i ≠ .stop)
    (hupdate : i ≠ .update) : t = { s with respStatus := t.respStatus, respData := t.respData } := by
  cases exec_eq_next_iff.mp h with
  | initReady hs | initFails hs => exact absurd hfailed hs
  | setSpeedReady _ hready | startReady hready => simp [hfailed] at hready
  | stop => exact absurd rfl hstop
  | update => exact absurd rfl hupdate
  | _ => rfl

end frame

/-- Settles O10: one lemma for each element of the state, by the commands that write it. -/
theorem frameOfEveryCommand : Obligations.FrameOfEveryCommand := by
  intro i s t h
  obtain ⟨hparams, hcomm⟩ := exec_keeps_params_comm h
  obtain ⟨hstimulus, hdraws⟩ := exec_keeps_inputs h
  refine ⟨hparams, hcomm, hstimulus, hdraws, fun hinit => exec_keeps_initState h (.inl hinit),
    fun hinit hspeed => ?settings, exec_keeps_isRunning h, fun hinit hstop hc => ?phases, fun hinit hc => ?fault,
    exec_responds_only_of_failed h⟩
  case settings =>
    obtain ⟨-, -, -, hspeed', hduty⟩ := exec_sameSettings h hinit hspeed
    exact ⟨hspeed', hduty⟩
  case phases =>
    obtain ⟨hphases, -⟩ := exec_of_not_commutates h hc
    exact hphases.resolve_right fun ⟨hi, _⟩ => hi.elim hstop hinit
  case fault =>
    obtain ⟨-, hfault⟩ := exec_of_not_commutates h hc
    exact hfault.resolve_right fun ⟨hi, _⟩ => hinit hi

section steps

variable {i : Instr} {s t : State}

theorem commutateIfRunning_phaseDuty_of_stopped (h : s.isRunning = false) :
    (commutateIfRunning s).phaseDuty = s.phaseDuty := by
  rw [commutateIfRunning_of_not_isRunning (Bool.eq_false_iff.mp h)]

/-- A command that ends stopped either found the block stopped and left its phases alone, or wrote zeros (R26). -/
theorem exec_keeps_stopped_phases_zero (h : exec i s = .next t)
    (hs : s.isRunning = false → s.phaseDuty = ⟨0, 0, 0⟩) (ht : t.isRunning = false) : t.phaseDuty = ⟨0, 0, 0⟩ := by
  cases exec_eq_next_iff.mp h with
  | initReady | initFails | stop => rfl
  | startReady => cases ht
  | setSpeedReady rpm =>
    have hstop : (writeSpeed (speedOperand rpm s) s).isRunning = false := by simpa using ht
    exact (commutateIfRunning_phaseDuty_of_stopped hstop).trans (hs hstop)
  | update =>
    have hstop : s.isRunning = false := by simpa using ht
    exact (commutateIfRunning_phaseDuty_of_stopped hstop).trans (hs hstop)
  | _ => exact hs ht

/-- A command that ends running found the block running and kept `initState`, or is START in READY (R184). -/
theorem exec_keeps_running_only_in_ready (h : exec i s = .next t) (hs : s.isRunning = true → s.initState = .ready)
    (ht : t.isRunning = true) : t.initState = .ready := by
  cases exec_eq_next_iff.mp h with
  | initReady | initFails | stop => cases ht
  | startReady hready => exact hready
  | setSpeedReady _ hready => simpa using hready
  | update => simpa using hs (by simpa using ht)
  | _ => exact hs ht

end steps

/-- Settles O50: no command writes `COMM` or the parameters, nor does a reset or using up the inputs. -/
theorem tableAndParametersAreFixed : Obligations.TableAndParametersAreFixed := by
  intro s t hstep
  obtain ⟨-, rfl⟩ | ⟨-, u, hu, rfl⟩ := step_cases hstep
  · simp
  · simpa using (exec_keeps_params_comm hu).symm

/-- Settles O40: a reset step writes zeros, and any other step ends as its command does. -/
theorem everyStepKeepsStoppedPhasesZero : Obligations.EveryStepKeepsStoppedPhasesZero := by
  intro s t hs hstep
  obtain ⟨-, rfl⟩ | ⟨-, u, hu, rfl⟩ := step_cases hstep
  · simp
  · simpa using exec_keeps_stopped_phases_zero hu hs

/-- Settles O41: a reset step stops the block, and any other step ends as its command does. -/
theorem everyStepKeepsRunningOnlyInReady : Obligations.EveryStepKeepsRunningOnlyInReady := by
  intro s t hs hstep
  obtain ⟨-, rfl⟩ | ⟨-, u, hu, rfl⟩ := step_cases hstep
  · simp
  · simpa using exec_keeps_running_only_in_ready hu hs

/-- Settles O46: a reset step writes the same zeros as STOP, whose one branch needs no `initState`. -/
theorem stopStepAlwaysEndsDeenergised : Obligations.StopStepAlwaysEndsDeenergised := by
  intro s hcommand
  cases hrst : s.presented.rst with
  | true => exact ⟨_, step_of_reset hrst, by simp⟩
  | false =>
    have hstop := exec_of_execResult (s := s) .stop
    rw [← hcommand] at hstop
    exact ⟨_, step_of_exec hrst hstop, by simp⟩

end Sys2Proof.Machine

/-! PROOFS. The admissible commutation tables (spec/40_commutation_table.md R102 to R104): a pattern has three
neighbours that differ in one phase, so the fixed entries for codes 3 and 5 leave few choices for the others. -/

namespace Sys2Proof.Machine

/-- Two patterns differ in one phase exactly if one is the other with that phase flipped. -/
theorem phaseChanges_eq_one_iff (x y : Pattern) :
    phaseChanges x y = 1 ↔
      y = { x with enA := !x.enA } ∨ y = { x with enB := !x.enB } ∨ y = { x with enC := !x.enC } := by
  obtain ⟨a, b, c⟩ := x
  obtain ⟨a', b', c'⟩ := y
  revert a b c a' b' c'
  decide

theorem phaseChanges_comm (x y : Pattern) : phaseChanges x y = phaseChanges y x := by
  simp only [phaseChanges, Bool.xor_comm]

/-- The entries that can stand next to code 3's entry `110` in the Hall cycle. -/
theorem neighbour_of_entry_three {x : Pattern} (h : phaseChanges ⟨true, true, false⟩ x = 1) :
    x = ⟨false, true, false⟩ ∨ x = ⟨true, false, false⟩ ∨ x = ⟨true, true, true⟩ :=
  (phaseChanges_eq_one_iff _ _).mp h

/-- The entries that can stand next to code 5's entry `101` in the Hall cycle. -/
theorem neighbour_of_entry_five {x : Pattern} (h : phaseChanges x ⟨true, false, true⟩ = 1) :
    x = ⟨false, false, true⟩ ∨ x = ⟨true, true, true⟩ ∨ x = ⟨true, false, false⟩ :=
  (phaseChanges_eq_one_iff _ _).mp (phaseChanges_comm _ _ ▸ h)

/-- Settles O13: entries 1 and 2 are neighbours of entry 3, and entry 4 is one of entry 5; going through the values of
entry 6, the other constraints leave four of these choices. -/
theorem exactlyFourTablesAreAdmissible : Obligations.ExactlyFourTablesAreAdmissible := by
  intro t
  constructor
  · obtain ⟨e0, e1, e2, e3, e4, e5, ⟨a, b, c⟩, e7⟩ := t
    rintro ⟨⟨rfl, rfl, rfl, rfl⟩, hdistinct, h13, h32, h26, h64, h45, h51⟩
    obtain rfl | rfl | rfl := neighbour_of_entry_three ((phaseChanges_comm _ _).trans h13) <;>
    obtain rfl | rfl | rfl := neighbour_of_entry_three h32 <;>
    obtain rfl | rfl | rfl := neighbour_of_entry_five h45 <;>
    clear h13 h32 h45 <;> revert a b c <;> decide
  · rintro (rfl | rfl | rfl | rfl) <;> decide

/-- Settles O12: the default table's entries, and its closed form by going through the eight codes. -/
theorem defaultTableContents : Obligations.DefaultTableContents := by
  unfold Obligations.DefaultTableContents
  decide

end Sys2Proof.Machine

/-! PROOFS. The scaler's shape (spec/41_speed_scaler.md R123): its endpoints and zeros, and how much the duty grows with
one more unit of speed, by which of PWM_RANGE and MAX_RPM is the larger. -/

namespace Sys2Proof.Machine

section scalerShape

variable {p : Params} {speed : Nat}

theorem scaleDuty_maxRpm (hmax : 0 < p.maxRpm) : scaleDuty p p.maxRpm = p.pwmRange :=
  Nat.mul_div_cancel_left _ hmax

/-- The full duty needs the full speed. -/
theorem maxRpm_le_of_scaleDuty_eq_pwmRange (hpwm : 0 < p.pwmRange) (h : scaleDuty p speed = p.pwmRange) :
    p.maxRpm ≤ speed := by
  have hle : p.pwmRange * p.maxRpm ≤ speed * p.pwmRange := h ▸ scaleDuty_mul_maxRpm_le p speed
  rw [Nat.mul_comm speed] at hle
  exact Nat.le_of_mul_le_mul_left hle hpwm

theorem scaleDuty_eq_zero_iff (hmax : 0 < p.maxRpm) : scaleDuty p speed = 0 ↔ speed * p.pwmRange < p.maxRpm :=
  Nat.div_eq_zero_iff_lt hmax

/-- One more unit of speed adds PWM_RANGE to the dividend. -/
theorem scaleDuty_succ (p : Params) (speed : Nat) :
    scaleDuty p (speed + 1) = (speed * p.pwmRange + p.pwmRange) / p.maxRpm := by
  rw [scaleDuty, Nat.add_one_mul]

theorem scaleDuty_add_one (hmax : 0 < p.maxRpm) (speed : Nat) :
    scaleDuty p speed + 1 = (speed * p.pwmRange + p.maxRpm) / p.maxRpm :=
  (Nat.add_div_right _ hmax).symm

theorem scaleDuty_succ_le (hmax : 0 < p.maxRpm) (h : p.pwmRange ≤ p.maxRpm) :
    scaleDuty p (speed + 1) ≤ scaleDuty p speed + 1 := by
  rw [scaleDuty_succ, scaleDuty_add_one hmax]
  exact Nat.div_le_div_right (Nat.add_le_add_left h _)

theorem scaleDuty_lt_succ (hmax : 0 < p.maxRpm) (h : p.maxRpm ≤ p.pwmRange) :
    scaleDuty p speed < scaleDuty p (speed + 1) := by
  rw [Nat.lt_iff_add_one_le, scaleDuty_succ, scaleDuty_add_one hmax]
  exact Nat.div_le_div_right (Nat.add_le_add_left h _)

/-- With PWM_RANGE above MAX_RPM the duty one below the greatest belongs to no legal speed: the greatest speed has the
greatest duty, and one unit of speed less lowers the duty by more than one. -/
theorem scaleDuty_ne_pwmRange_sub_one (hmax : 0 < p.maxRpm) (h : p.maxRpm < p.pwmRange) (hspeed : speed ≤ p.maxRpm) :
    scaleDuty p speed ≠ p.pwmRange - 1 := by
  intro hgap
  obtain rfl | hlt := hspeed.eq_or_lt
  · rw [scaleDuty_maxRpm hmax] at hgap
    omega
  · have hquot := scaleDuty_mul_maxRpm_le p speed
    rw [hgap] at hquot
    have hproduct : speed * p.pwmRange ≤ (p.maxRpm - 1) * p.pwmRange :=
      Nat.mul_le_mul_right _ (Nat.le_sub_one_of_lt hlt)
    rw [Nat.sub_one_mul] at hquot hproduct
    rw [Nat.mul_comm p.maxRpm] at hproduct
    have hrange : p.pwmRange ≤ p.pwmRange * p.maxRpm := Nat.le_mul_of_pos_right _ hmax
    omega

end scalerShape

/-- Settles O18: a product divided by one of its factors, a division with monotone dividend, and a quotient that is 0
exactly below its divisor. -/
theorem scaleDutyEndpointsAndMonotonicity : Obligations.ScaleDutyEndpointsAndMonotonicity := by
  rintro p ⟨hmax, -, hpwm, -⟩
  refine ⟨scaleDuty_zero p, scaleDuty_maxRpm hmax, fun speed hspeed hfull => ?top, fun u v huv _ => ?mono,
    fun speed _ => scaleDuty_eq_zero_iff hmax⟩
  case top => exact hspeed.antisymm (maxRpm_le_of_scaleDuty_eq_pwmRange hpwm hfull)
  case mono => exact scaleDuty_le_of_le huv

/-- Settles O19: one unit of speed adds at most one to the duty if PWM_RANGE is at most MAX_RPM, and at least one
otherwise, which leaves PWM_RANGE - 1 out. -/
theorem scaleDutyStepSizes : Obligations.ScaleDutyStepSizes := by
  rintro p ⟨hmax, -, -, -⟩
  refine ⟨fun hle speed _ => ?steps, fun hlt => ⟨fun u v _ _ huv => ?injective, ?gap⟩⟩
  case steps =>
    have hlow : scaleDuty p speed ≤ scaleDuty p (speed + 1) := scaleDuty_le_of_le (Nat.le_succ speed)
    have hhigh : scaleDuty p (speed + 1) ≤ scaleDuty p speed + 1 := scaleDuty_succ_le hmax hle
    omega
  case injective =>
    have hmono : StrictMono (scaleDuty p) := strictMono_nat_of_lt_succ fun _ => scaleDuty_lt_succ hmax hlt.le
    exact hmono.injective huv
  case gap => exact ⟨p.pwmRange - 1, Nat.sub_le _ _, fun speed => scaleDuty_ne_pwmRange_sub_one hmax hlt⟩

end Sys2Proof.Machine

/-! PROOFS. What a command reads of the inputs (spec/20_memory.md R52, spec/70_reset_and_hazards.md R234): the Hall
levels in a commutation update and `hw_init_ok` in INIT, and nothing else. With it, when a commutation update changes
nothing (42_phase_mux.md R144), and START of a running block (43_controller_commands.md R171). -/

namespace Sys2Proof.Machine

section otherInputs

variable {i : Instr} {s t : State} {xs : List StepInput} {n : Nat}

theorem respond_withInputs (r : RespStatus) (d : BitVec 32) :
    (respond r d s).withInputs xs n = respond r d (s.withInputs xs n) := rfl

theorem commutationUpdate_withInputs (h : hallRead (s.withInputs xs n) = hallRead s) :
    commutationUpdate (s.withInputs xs n) = (commutationUpdate s).withInputs xs n := by
  rw [commutationUpdate_eq, commutationUpdate_eq, h]

theorem commutateIfRunning_withInputs (h : s.isRunning = true → hallRead (s.withInputs xs n) = hallRead s) :
    commutateIfRunning (s.withInputs xs n) = (commutateIfRunning s).withInputs xs n := by
  obtain ⟨hrun, hc⟩ | ⟨hstop, hc⟩ := commutateIfRunning_cases s
  · rw [hc, ← commutationUpdate_withInputs (h hrun)]
    exact commutateIfRunning_of_isRunning hrun
  · rw [hc]
    exact commutateIfRunning_of_not_isRunning (Bool.eq_false_iff.mp hstop)

/-- Inputs that show INIT the same `hw_init_ok`, and a commutation update the same Hall code, make no difference to what
a command answers. -/
theorem execResult_withInputs (h : ExecResult s i t)
    (hw : i = .init → (s.withInputs xs n).presented.hwInitOk = s.presented.hwInitOk)
    (hhall : Commutates i s → hallRead (s.withInputs xs n) = hallRead s) :
    ExecResult (s.withInputs xs n) i (t.withInputs xs n) := by
  cases h with
  | nop => exact .nop
  | initStaysFailed hs => exact .initStaysFailed hs
  | initReady hs hok => exact .initReady hs ((hw rfl).trans hok)
  | initFails hs hok => exact .initFails hs ((hw rfl).trans hok)
  | setSpeedReady rpm hready =>
    rw [respond_withInputs, ← commutateIfRunning_withInputs (s := writeSpeed (speedOperand rpm s) s) fun hrun =>
      hhall (commutates_setSpeed_iff.mpr ⟨hready, hrun⟩)]
    exact .setSpeedReady rpm hready
  | setSpeedNotReady rpm hready => exact .setSpeedNotReady rpm hready
  | startReady hready =>
    rw [respond_withInputs, ← commutationUpdate_withInputs (s := { s with isRunning := true })
      (hhall (commutates_start_iff.mpr hready))]
    exact .startReady hready
  | startNotReady hready => exact .startNotReady hready
  | stop => exact .stop
  | getSpeed => exact .getSpeed
  | update =>
    rw [respond_withInputs, ← commutateIfRunning_withInputs fun hrun => hhall (commutates_update_iff.mpr hrun)]
    exact .update
  | reserved => exact .reserved

theorem exists_exec_withInputs (i : Instr) (s : State)
    (hw : i = .init → (s.withInputs xs n).presented.hwInitOk = s.presented.hwInitOk)
    (hhall : Commutates i s → hallRead (s.withInputs xs n) = hallRead s) :
    ∃ t, exec i s = .next t ∧ exec i (s.withInputs xs n) = .next (t.withInputs xs n) := by
  obtain ⟨t, ht⟩ := exists_execResult i s
  exact ⟨t, exec_of_execResult ht, exec_of_execResult (execResult_withInputs ht hw hhall)⟩

end otherInputs

/-- Settles O25: without a commutation update only `hw_init_ok` is left to read. -/
theorem onlyCommutationUpdatesReadTheHallInputs : Obligations.OnlyCommutationUpdatesReadTheHallInputs :=
  fun i s _ _ hc hw => exists_exec_withInputs i s (fun _ => hw) fun hcommutates => absurd hcommutates hc

/-- Settles O26: outside INIT only the Hall code is left to read. -/
theorem onlyInitReadsHwInitOk : Obligations.OnlyInitReadsHwInitOk :=
  fun i s _ _ hinit hhall => exists_exec_withInputs i s (fun hi => absurd hi hinit) fun _ => hhall

section repeated

variable {s : State} {r : RespStatus} {d : BitVec 32}

theorem respond_eq_self (hr : s.respStatus = r) (hd : s.respData = d) : respond r d s = s := by
  subst hr hd
  rfl

/-- A running state that shows the code it samples is left as it is (R144). -/
theorem commutateIfRunning_eq_self (h : s.isRunning = true →
      s.phaseDuty = phaseMux (lookup s.comm (hallRead s)) s.dutyCycle ∧ s.hallFault = invalidCode (hallRead s)) :
    commutateIfRunning s = s := by
  obtain ⟨hrun, hc⟩ | ⟨-, hc⟩ := commutateIfRunning_cases s
  · obtain ⟨hphases, hfault⟩ := h hrun
    rw [hc, commutationUpdate_eq, ← hphases, ← hfault]
  · exact hc

/-- UPDATE in a state that has UPDATE's response and, if it runs, shows the code it samples. -/
theorem exec_update_eq_self (hr : s.respStatus = statusOf s.initState) (hd : s.respData = 0)
    (hc : commutateIfRunning s = s) : exec .update s = .next s := by
  rw [exec_of_execResult .update, hc, respond_eq_self hr hd]

end repeated

/-- Settles O23: the first UPDATE's response and commutation update are what the second would write. -/
theorem updateIsIdempotent : Obligations.UpdateIsIdempotent := by
  intro s t xs n h hcode
  cases exec_eq_next_iff.mp h
  refine exec_update_eq_self (by simp) rfl (commutateIfRunning_eq_self fun hrun => ?_)
  have hrun' : s.isRunning = true := by simpa using hrun
  rw [hcode]
  simp [commutateIfRunning_of_isRunning hrun']

/-- Settles O24: setting `isRunning` of a running state changes nothing, and in READY `st(initState)` is OK. -/
theorem startWhileRunningEqualsUpdate : Obligations.StartWhileRunningEqualsUpdate := by
  intro s hready hrun
  have hsame : { s with isRunning := true } = s := by
    rw [← hrun]
  rw [exec_of_execResult (.startReady hready), hsame, exec_update_of_isRunning hrun, hready, statusOf_ready]

end Sys2Proof.Machine

/-! PROOFS. Runs of a few commands: the command right after a SET_SPEED (spec/70_reset_and_hazards.md R240), and the
commands that take the reset state to any state with the invariant, so that the reachable states are exactly these
(spec/43_controller_commands.md R184). -/

namespace Sys2Proof.Machine

section afterSetSpeed

variable {s : State} {x : StepInput} {xs : List StepInput} {rpm : Int}

/-- SET_SPEED's step in READY: the run goes on in READY from the clamped speed and its duty (R166). -/
theorem runInputs_setSpeed_cons (hrst : x.rst = false)
    (hcmd : decode s.params.rpmInSigned x.cmd = .setSpeed rpm) (hready : s.initState = .ready) :
    ∃ u : State, s.runInputs (x :: xs) = u.runInputs xs ∧ u.params = s.params ∧ u.comm = s.comm ∧
      u.initState = .ready ∧ u.commandedSpeed = clampSpeed s.params rpm ∧
      u.dutyCycle = scaleDuty s.params (clampSpeed s.params rpm) := by
  have hresult := ExecResult.setSpeedReady (s := { s with stimulus := x :: xs }) rpm hready
  exact ⟨_, runInputs_cons hrst (hcmd ▸ exec_of_execResult hresult), by simp [hready, speedOperand]⟩

/-- GET_SPEED's step in READY, from a legal speed (R175). -/
theorem runInputs_getSpeed (hrst : x.rst = false) (hcmd : decode s.params.rpmInSigned x.cmd = .getSpeed)
    (hready : s.initState = .ready) (hp : s.params.Admissible) (hspeed : s.commandedSpeed ≤ s.params.maxRpm) :
    ∃ t, s.runInputs [x] = .next t ∧ t.respStatus = .ok ∧ t.respData.toNat = s.commandedSpeed := by
  refine ⟨_, runInputs_singleton hrst hcmd .getSpeed, ?_, speedData_toNat hp hspeed⟩
  simp [hready, statusOf_ready]

end afterSetSpeed

/-- Settles O48: both commands find the state SET_SPEED has left, with the clamped speed and its duty. -/
theorem commandAfterSetSpeedSeesTheNewSpeed : Obligations.CommandAfterSetSpeedSeesTheNewSpeed := by
  intro s x y rpm v hp hready hx hy hset hv
  obtain rfl : clampSpeed s.params rpm = v := clampSpeed_unique hv
  obtain ⟨u, hrun, hparams, hcomm, hready', hspeed, hduty⟩ := runInputs_setSpeed_cons (xs := [y]) hx hset hready
  rw [hrun, ← hspeed, ← hparams]
  refine ⟨fun hget => ?getSpeed, fun hstart => ?start⟩
  case getSpeed =>
    have hlegal : u.commandedSpeed ≤ u.params.maxRpm := by
      rw [hspeed, hparams]
      exact clampSpeed_le s.params rpm
    exact runInputs_getSpeed hy hget hready' (hparams ▸ hp) hlegal
  case start =>
    obtain ⟨t, ht, -, -, hrunning, hphases⟩ := runInputs_start hy hstart hready'
    rw [hcomm, hduty, ← hspeed, ← hparams] at hphases
    exact ⟨t, ht, hrunning, hphases⟩

/-- Some run from the reset state of the same parameters and table ends in `s`, its response registers left aside. -/
def State.Reachable (s : State) : Prop :=
  ∃ (xs : List StepInput) (t : State),
    (State.resetWith s.params s.comm).runInputs xs = .next t ∧ t.SameButResponse s

section reachable

variable {s t u : State} {xs : List StepInput}

/-- A run keeps the invariant, with or without reset steps in it. -/
theorem runInputs_inv (h : s.Inv) (hrun : s.runInputs xs = .next t) : t.Inv := by
  induction xs generalizing s with
  | nil =>
    cases hrun
    exact withInputs_inv h [] s.draws
  | cons x xs ih =>
    cases hrst : x.rst with
    | true =>
      rw [runInputs_reset hrst] at hrun
      exact ih (resetBlock_inv h.params h.table) hrun
    | false =>
      obtain ⟨u, hu⟩ := exec_completes (decode s.params.rpmInSigned x.cmd) { s with stimulus := x :: xs }
      rw [runInputs_cons hrst hu] at hrun
      exact ih (exec_inv (withInputs_inv h (x :: xs) s.draws) hu) hrun

/-- The inputs of a step that presents the command `i` with the given levels, and no reset. -/
def commandInput (i : Instr) (hallA hallB hallC hwInitOk : Bool) : StepInput :=
  { cmd := encode i, hallA, hallB, hallC, hwInitOk, rst := false }

/-- What the step with these inputs does to a run. -/
theorem runInputs_commandInput (i : Instr) (a b c ok : Bool) (hi : WellFormed s.params.rpmInSigned i = true)
    (h : ExecResult { s with stimulus := commandInput i a b c ok :: xs } i u) :
    s.runInputs (commandInput i a b c ok :: xs) = u.runInputs xs := by
  have hcmd : decode s.params.rpmInSigned (commandInput i a b c ok).cmd = i := decode_encode hi
  exact runInputs_cons rfl (hcmd.symm ▸ exec_of_execResult h)

/-- A legal speed is an operand in range in both readings, since MAX_RPM is below 2^31 (00_scope.md R5). -/
theorem operandInRange_of_legal {p : Params} {v : Nat} (hp : p.Admissible) (hv : v ≤ p.maxRpm) (signed : Bool) :
    operandInRange signed v = true := by
  obtain ⟨-, hmax, -, -⟩ := hp
  cases signed with
  | true => exact operandInRange_signed_iff.mpr (by omega)
  | false => exact operandInRange_unsigned_iff.mpr (by omega)

theorem clampSpeed_of_legal {p : Params} {v : Nat} (hv : v ≤ p.maxRpm) : clampSpeed p v = v :=
  Int.ofNat_inj.mp (clampSpeed_cast_of_inRange (Int.natCast_nonneg v) (Int.ofNat_le.mpr hv))

/-- The block in READY, stopped, at the speed `v`, as INIT and SET_SPEED leave it. -/
def readyAt (p : Params) (t : CommTable) (v : Nat) : State :=
  { State.resetWith p t with initState := .ready, commandedSpeed := v, dutyCycle := scaleDuty p v }

/-- The block running at the speed `v` with a sampled code, as START leaves it. -/
def runningAt (p : Params) (t : CommTable) (v : Nat) (code : HallCode) : State :=
  { readyAt p t v with
    isRunning := true
    phaseDuty := phaseMux (lookup t code) (scaleDuty p v)
    hallFault := invalidCode code }

variable {p : Params} {table : CommTable} {v w : Nat}

theorem resetWith_initState_ne_failed (p : Params) (table : CommTable) :
    (State.resetWith p table).initState ≠ .failed := by
  simp [State.resetWith]

/-- INIT takes the reset state to READY at speed 0 (R163). -/
theorem runInputs_init_resetWith (p : Params) (table : CommTable) (xs : List StepInput) :
    (State.resetWith p table).runInputs (commandInput .init false false false true :: xs) =
      (readyAt p table 0).runInputs xs := by
  have hrun := runInputs_commandInput (s := State.resetWith p table) (xs := xs) .init false false false true rfl
    (.initReady (resetWith_initState_ne_failed p table) rfl)
  exact hrun

/-- SET_SPEED of a legal speed changes a stopped READY block's speed to it (R166). -/
theorem runInputs_setSpeed_readyAt (hp : p.Admissible) (hv : v ≤ p.maxRpm) (xs : List StepInput) :
    (readyAt p table w).runInputs (commandInput (.setSpeed v) false false false true :: xs) =
      (readyAt p table v).runInputs xs := by
  have hrun := runInputs_commandInput (s := readyAt p table w) (xs := xs) (.setSpeed v) false false false true
    (operandInRange_of_legal hp hv _) (.setSpeedReady v rfl)
  have hspeed (s : State) (hs : s.params = p) : speedOperand v s = v := by
    rw [speedOperand, hs, clampSpeed_of_legal hv]
  rw [hspeed _ rfl] at hrun
  exact hrun

/-- START makes it run with the code it samples (R169). -/
theorem runInputs_start_readyAt (a b c : Bool) (xs : List StepInput) :
    (readyAt p table v).runInputs (commandInput .start a b c true :: xs) =
      (runningAt p table v (hallCode a b c)).runInputs xs := by
  have hrun := runInputs_commandInput (s := readyAt p table v) (xs := xs) .start a b c true rfl (.startReady rfl)
  exact hrun

/-- INIT, SET_SPEED and START take the reset state to running at any legal speed with any code. -/
theorem exists_runInputs_runningAt (table : CommTable) (hp : p.Admissible) (hv : v ≤ p.maxRpm) (code : HallCode) :
    ∃ xs, ∀ ys, (State.resetWith p table).runInputs (xs ++ ys) = (runningAt p table v code).runInputs ys := by
  obtain ⟨a, b, c, rfl⟩ := hallCode_surjective code
  refine ⟨[commandInput .init false false false true, commandInput (.setSpeed v) false false false true,
    commandInput .start a b c true], fun ys => ?_⟩
  exact (runInputs_init_resetWith p table _).trans
    ((runInputs_setSpeed_readyAt hp hv _).trans (runInputs_start_readyAt a b c ys))

theorem exists_invalidCode_eq (fault : Bool) : ∃ code : HallCode, invalidCode code = fault := by
  revert fault
  decide

/-- A running state with the invariant is `runningAt` its speed with the code it shows. -/
theorem reachable_of_inv_of_running (h : s.Inv) (hrun : s.isRunning = true) : s.Reachable := by
  obtain ⟨code, hphases, hfault⟩ := h.running hrun
  obtain ⟨xs, hxs⟩ := exists_runInputs_runningAt s.comm h.params h.speed code
  refine ⟨xs ++ [], _, hxs [], rfl, rfl, rfl, hrun.symm, h.duty.symm, ?_, (h.ready_of_isRunning hrun).symm,
    hfault.symm⟩
  rw [hphases, h.duty]
  rfl

/-- A stopped READY state with the invariant is left by a STOP after a START that sampled a code for its `hallFault`. -/
theorem reachable_of_inv_of_stopped (h : s.Inv) (hready : s.initState = .ready) (hstop : s.isRunning = false) :
    s.Reachable := by
  obtain ⟨code, hfault⟩ := exists_invalidCode_eq s.hallFault
  obtain ⟨xs, hxs⟩ := exists_runInputs_runningAt s.comm h.params h.speed code
  have hrun := (hxs _).trans (runInputs_commandInput (xs := []) .stop false false false true rfl .stop)
  exact ⟨_, _, hrun, rfl, rfl, rfl, hstop.symm, h.duty.symm, (h.stopped hstop).symm, hready.symm, hfault⟩

/-- Outside READY a good state is all zero, so the parameters, the table and `initState` determine it. -/
theorem sameButResponse_of_not_ready (hs : s.Inv) (ht : t.Inv) (hready : s.initState ≠ .ready)
    (hparams : t.params = s.params) (hcomm : t.comm = s.comm) (hinit : t.initState = s.initState) :
    t.SameButResponse s := by
  obtain ⟨hspeed, hstop, hoff, hfault⟩ := hs.notReady hready
  obtain ⟨hspeed', hstop', hoff', hfault'⟩ := ht.notReady (hinit ▸ hready)
  refine ⟨hparams, hcomm, hspeed'.trans hspeed.symm, hstop'.trans hstop.symm, ?_, hoff'.trans hoff.symm, hinit,
    hfault'.trans hfault.symm⟩
  rw [hs.duty, ht.duty, hspeed, hspeed', hparams]

/-- UNINIT is the reset state itself, and FAILED is what an INIT with `hw_init_ok = 0` makes of it. -/
theorem reachable_of_inv_of_not_ready (h : s.Inv) (hready : s.initState ≠ .ready) : s.Reachable := by
  have hreset : (State.resetWith s.params s.comm).Inv := resetWith_inv h.params h.table
  cases hinit : s.initState with
  | ready => exact absurd hinit hready
  | uninit => exact ⟨[], _, rfl, sameButResponse_of_not_ready h hreset hready rfl rfl hinit.symm⟩
  | failed =>
    have hfailed := resetWith_initState_ne_failed s.params s.comm
    have hrun := runInputs_commandInput (s := State.resetWith s.params s.comm) (xs := []) .init false false false
      false rfl (.initFails hfailed rfl)
    exact ⟨_, _, hrun, sameButResponse_of_not_ready h (runInputs_inv hreset hrun) hready rfl rfl hinit.symm⟩

end reachable

/-- Settles O38: every run keeps the invariant, which does not speak of the response; and a state that has it is reached
by one of three runs, for a running state, a stopped READY state and a state outside READY. -/
theorem reachableStatesAreExactlyTheInvariant : Obligations.ReachableStatesAreExactlyTheInvariant := by
  refine fun s hparams htable => ⟨fun h => ?reached, fun ⟨xs, t, hrun, hsame⟩ => ?good⟩
  case reached =>
    by_cases hready : s.initState = .ready
    · cases hrun : s.isRunning with
      | true => exact reachable_of_inv_of_running h hrun
      | false => exact reachable_of_inv_of_stopped h hready hrun
    · exact reachable_of_inv_of_not_ready h hready
  case good => exact inv_of_sameButResponse (runInputs_inv (resetWith_inv hparams htable) hrun) hsame

/-- Settles O35: the reset values, with the default parameters and table. -/
theorem stateAfterReset : Obligations.StateAfterReset :=
  ⟨rfl, rfl, rfl, rfl, rfl, rfl, rfl, rfl, rfl, rfl⟩

end Sys2Proof.Machine
